-- ==== Sys2Proof/Word.lean ====
section
/-! DEFINITION. The machine's words: bytes, 64-bit addresses and the four operand widths (spec 00_scope.md R5, R6). -/

namespace Sys2Proof

/-- "a byte is the smallest addressable quantity"; 8 bits (R1, R5). -/
abbrev Byte := BitVec 8

/-- An address, and the content of each of the five registers: 64 bits (R5, 10_state.md R22). -/
abbrev Addr := BitVec 64

/-- The four operand widths (R5). -/
inductive Width where
  | w8
  | w16
  | w32
  | w64
deriving DecidableEq, Repr

/-- Size in bytes of an element of the width. -/
@[reducible] def Width.bytes : Width → Nat
  | .w8 => 1
  | .w16 => 2
  | .w32 => 4
  | .w64 => 8

/-- The N of an N-bit element. -/
@[reducible] def Width.bits : Width → Nat
  | .w8 => 8
  | .w16 => 16
  | .w32 => 32
  | .w64 => 64

/-- An N-bit pattern (R7). -/
abbrev Elem (w : Width) := BitVec w.bits

end Sys2Proof
end

