-- ==== Sys2Proof/Config.lean ====
section
/-! DEFINITION. What the spec leaves to an implementation or a launch: the parameters of spec 00_scope.md R5 and the one
free value, NUM.shift_over. -/

namespace Sys2Proof

/-- The three shift operations, the first argument of NUM.shift_over (43_shift_bitwise.md R251). -/
inductive ShiftOp where
  | lshift
  | rshiftu
  | rshifti
deriving DecidableEq, Repr

/-- NUM.shift_over(op, N, a, c): the result of a shift whose count is not below the width (43_shift_bitwise.md R251,
D9). A free value: it has no body, so nothing is known of it but that it is a function of its four arguments (log 6). -/
opaque Config.shiftOver (op : ShiftOp) (n : Nat) (a : BitVec n) (count : Nat) : BitVec n

/-- BOOLW(N), the width of a Boolean result: N or 8 (44_boolean_comparison.md R290, D12; log 7). -/
inductive BoolWidth where
  | operand
  | byte
deriving DecidableEq, Repr

/-- DIV_OVERFLOW, what MIN / -1 does (42_integer_arithmetic.md R184, D8; log 8). -/
inductive DivOverflow where
  | fault
  | wrap
deriving DecidableEq, Repr

/-- The addresses lo, lo + 1, …, hi (none where hi is below lo). -/
structure AddrRange where
  lo : Addr
  hi : Addr
deriving DecidableEq, Repr

/-- The launch configuration of 60_exceptions.md R497: fixed for a run (log 15). -/
structure Platform where
  /-- OPC: the op code bytes of the 255 mnemonics, in document order (30_encoding.md R95, D1; log 5). -/
  opc : List Byte
  /-- BOOLW. -/
  boolw : BoolWidth
  /-- DIV_OVERFLOW. -/
  divOverflow : DivOverflow
  /-- The addresses at which MAPPED is false (20_memory.md R55, D17; log 9). -/
  holes : List AddrRange
deriving DecidableEq, Repr

/-- The default numbering: document order from 0x00 to 0xFE, 0xFF unassigned (30_encoding.md R95). -/
def Config.defaultOpc : List Byte := (List.range 255).map (BitVec.ofNat 8)

/-- The defaults of 00_scope.md R5. -/
def Config.defaultPlatform : Platform :=
  { opc := Config.defaultOpc, boolw := .operand, divOverflow := .fault, holes := [] }

/-- RESET_PC. DESIGN CHOICE (log 2): the spec leaves it OPEN (D18); its programs launch at 0x1000. -/
def Config.resetPc : Addr := 0x1000

/-- What a byte of memory reads as that neither the image nor a write has defined. DESIGN CHOICE (log 3): the spec
leaves it unspecified (10_state.md R35, U20). -/
def Config.unlistedByte : Byte := 0

end Sys2Proof
end

