-- ==== Sys2Proof/Syntax.lean ====
section
/-! DEFINITION. The instructions: one constructor for each of the 255 rows of spec/opcode_table.json, in the table's order,
with the immediate of its format as its argument (30_encoding.md R91, R92). The stack operands are not encoded (R93). The
miscellaneous operations stand before the memory operations because Lean's runtime gives a constructor that has an argument
no number above 244; the op code numbers are Decode.lean's, in the order of the table. -/

namespace Sys2Proof

/-- The instruction set of Starch. -/
inductive Instr where
  -- Push operations (40_push_pop_dup_set.md R121-R136)
  | push8 (imm : BitVec 8)
  | push8asu16 (imm : BitVec 8)
  | push8asu32 (imm : BitVec 8)
  | push8asu64 (imm : BitVec 8)
  | push8asi16 (imm : BitVec 8)
  | push8asi32 (imm : BitVec 8)
  | push8asi64 (imm : BitVec 8)
  | push16 (imm : BitVec 16)
  | push16asu32 (imm : BitVec 16)
  | push16asu64 (imm : BitVec 16)
  | push16asi32 (imm : BitVec 16)
  | push16asi64 (imm : BitVec 16)
  | push32 (imm : BitVec 32)
  | push32asu64 (imm : BitVec 32)
  | push32asi64 (imm : BitVec 32)
  | push64 (imm : BitVec 64)
  -- Pop operations (40_push_pop_dup_set.md R137-R140)
  | pop8
  | pop16
  | pop32
  | pop64
  -- Duplication and set operations (40_push_pop_dup_set.md R141-R148)
  | dup8
  | dup16
  | dup32
  | dup64
  | set8
  | set16
  | set32
  | set64
  -- Promotion and demotion operations (41_promotion_demotion.md R161-R175)
  | prom8u16
  | prom8u32
  | prom8u64
  | prom8i16
  | prom8i32
  | prom8i64
  | prom16u32
  | prom16u64
  | prom16i32
  | prom16i64
  | prom32u64
  | prom32i64
  | dem64to16
  | dem64to8
  | dem32to8
  -- Integer addition, subtraction and multiplication (42_integer_arithmetic.md R185-R204)
  | add8
  | add16
  | add32
  | add64
  | sub8
  | sub16
  | sub32
  | sub64
  | subr8
  | subr16
  | subr32
  | subr64
  | mulu8
  | mulu16
  | mulu32
  | mulu64
  | muli8
  | muli16
  | muli32
  | muli64
  -- Integer division and remainder (42_integer_arithmetic.md R205-R236)
  | divu8
  | divu16
  | divu32
  | divu64
  | divru8
  | divru16
  | divru32
  | divru64
  | divi8
  | divi16
  | divi32
  | divi64
  | divri8
  | divri16
  | divri32
  | divri64
  | modu8
  | modu16
  | modu32
  | modu64
  | modru8
  | modru16
  | modru32
  | modru64
  | modi8
  | modi16
  | modi32
  | modi64
  | modri8
  | modri16
  | modri32
  | modri64
  -- Bitwise shift operations (43_shift_bitwise.md R254-R265)
  | lshift8
  | lshift16
  | lshift32
  | lshift64
  | rshiftu8
  | rshiftu16
  | rshiftu32
  | rshiftu64
  | rshifti8
  | rshifti16
  | rshifti32
  | rshifti64
  -- Bitwise logical operations (43_shift_bitwise.md R266-R281)
  | band8
  | band16
  | band32
  | band64
  | bor8
  | bor16
  | bor32
  | bor64
  | bxor8
  | bxor16
  | bxor32
  | bxor64
  | binv8
  | binv16
  | binv32
  | binv64
  -- Boolean logical operations (44_boolean_comparison.md R292-R303)
  | land8
  | land16
  | land32
  | land64
  | lor8
  | lor16
  | lor32
  | lor64
  | linv8
  | linv16
  | linv32
  | linv64
  -- Comparison operations (44_boolean_comparison.md R304-R343)
  | ceq8
  | ceq16
  | ceq32
  | ceq64
  | cne8
  | cne16
  | cne32
  | cne64
  | cgtu8
  | cgtu16
  | cgtu32
  | cgtu64
  | cgti8
  | cgti16
  | cgti32
  | cgti64
  | cltu8
  | cltu16
  | cltu32
  | cltu64
  | clti8
  | clti16
  | clti32
  | clti64
  | cgteu8
  | cgteu16
  | cgteu32
  | cgteu64
  | cgtei8
  | cgtei16
  | cgtei32
  | cgtei64
  | clteu8
  | clteu16
  | clteu32
  | clteu64
  | cltei8
  | cltei16
  | cltei32
  | cltei64
  -- Function call and return (45_call_return.md R351-R353)
  | call (imm : BitVec 64)
  | calls
  | ret
  -- Jump instructions (46_jump_branch.md R371-R375)
  | jmp (imm : BitVec 64)
  | jmps
  | rjmpi8 (imm : BitVec 8)
  | rjmpi16 (imm : BitVec 16)
  | rjmpi32 (imm : BitVec 32)
  -- Branching instructions (46_jump_branch.md R376-R391)
  | brz8 (imm : BitVec 64)
  | brz16 (imm : BitVec 64)
  | brz32 (imm : BitVec 64)
  | brz64 (imm : BitVec 64)
  | rbrz8i8 (imm : BitVec 8)
  | rbrz8i16 (imm : BitVec 16)
  | rbrz8i32 (imm : BitVec 32)
  | rbrz16i8 (imm : BitVec 8)
  | rbrz16i16 (imm : BitVec 16)
  | rbrz16i32 (imm : BitVec 32)
  | rbrz32i8 (imm : BitVec 8)
  | rbrz32i16 (imm : BitVec 16)
  | rbrz32i32 (imm : BitVec 32)
  | rbrz64i8 (imm : BitVec 8)
  | rbrz64i16 (imm : BitVec 16)
  | rbrz64i32 (imm : BitVec 32)
  -- Miscellaneous operations (48_misc.md R460-R467)
  | setsbp (imm : BitVec 64)
  | setsfp (imm : BitVec 64)
  | setsp (imm : BitVec 64)
  | setslp (imm : BitVec 64)
  | nop
  | ext
  | halt
  | invalid
  -- Memory operations: loads (47_memory_ops.md R402-R417)
  | load8
  | load16
  | load32
  | load64
  | loadpop8
  | loadpop16
  | loadpop32
  | loadpop64
  | loadsfp8
  | loadsfp16
  | loadsfp32
  | loadsfp64
  | loadpopsfp8
  | loadpopsfp16
  | loadpopsfp32
  | loadpopsfp64
  -- Memory operations: stores, value on top (47_memory_ops.md R418-R433)
  | store8
  | store16
  | store32
  | store64
  | storepop8
  | storepop16
  | storepop32
  | storepop64
  | storesfp8
  | storesfp16
  | storesfp32
  | storesfp64
  | storepopsfp8
  | storepopsfp16
  | storepopsfp32
  | storepopsfp64
  -- Memory operations: stores, address on top (47_memory_ops.md R434-R449)
  | storer8
  | storer16
  | storer32
  | storer64
  | storerpop8
  | storerpop16
  | storerpop32
  | storerpop64
  | storersfp8
  | storersfp16
  | storersfp32
  | storersfp64
  | storerpopsfp8
  | storerpopsfp16
  | storerpopsfp32
  | storerpopsfp64
deriving DecidableEq, Repr

end Sys2Proof
end

