-- ==== Sys2Proof/Decode.lean ====
section
/-! DEFINITION. The decoder, total on any bytes and rejecting by name, and after it the encoder (30_encoding.md R90 to R97).
The op code numbering OPC is an argument of both, the list of the 255 op code bytes in document order (R95). -/

namespace Sys2Proof

/-! ## Little-endian byte strings (20_memory.md R51, R52) -/

/-- The low n bytes of v, least significant first. -/
def leBytes : Nat → Nat → List Byte
  | 0, _ => []
  | n + 1, v => BitVec.ofNat 8 v :: leBytes n (v / 256)

/-- The number whose bytes, least significant first, are given. -/
def leNat : List Byte → Nat
  | [] => 0
  | b :: bs => b.toNat + 256 * leNat bs

/-! ## The op code table -/

/-- One row of the op code table: the instruction, or what the immediate of its format makes of it (R91). -/
inductive OpRow where
  | op (i : Instr)
  | imm8 (f : BitVec 8 → Instr)
  | imm16 (f : BitVec 16 → Instr)
  | imm32 (f : BitVec 32 → Instr)
  | imm64 (f : BitVec 64 → Instr)

/-- Size in bytes of the immediate; the length L of the instruction is one more (R91). -/
def OpRow.immLen : OpRow → Nat
  | .op _ => 0
  | .imm8 _ => 1
  | .imm16 _ => 2
  | .imm32 _ => 4
  | .imm64 _ => 8

/-- The instruction with the immediate whose little-endian bytes make the number imm (R93). -/
def OpRow.build (imm : Nat) : OpRow → Instr
  | .op i => i
  | .imm8 f => f (BitVec.ofNat 8 imm)
  | .imm16 f => f (BitVec.ofNat 16 imm)
  | .imm32 f => f (BitVec.ofNat 32 imm)
  | .imm64 f => f (BitVec.ofNat 64 imm)

/-- Push operations (40_push_pop_dup_set.md R121-R136). -/
def pushRows : List OpRow :=
  [.imm8 .push8, .imm8 .push8asu16, .imm8 .push8asu32, .imm8 .push8asu64, .imm8 .push8asi16, .imm8 .push8asi32,
   .imm8 .push8asi64, .imm16 .push16, .imm16 .push16asu32, .imm16 .push16asu64, .imm16 .push16asi32,
   .imm16 .push16asi64, .imm32 .push32, .imm32 .push32asu64, .imm32 .push32asi64, .imm64 .push64]

/-- Pop operations (40_push_pop_dup_set.md R137-R140). -/
def popRows : List OpRow :=
  [.op .pop8, .op .pop16, .op .pop32, .op .pop64]

/-- Duplication and set operations (40_push_pop_dup_set.md R141-R148). -/
def dupsetRows : List OpRow :=
  [.op .dup8, .op .dup16, .op .dup32, .op .dup64, .op .set8, .op .set16, .op .set32, .op .set64]

/-- Promotion and demotion operations (41_promotion_demotion.md R161-R175). -/
def promRows : List OpRow :=
  [.op .prom8u16, .op .prom8u32, .op .prom8u64, .op .prom8i16, .op .prom8i32, .op .prom8i64, .op .prom16u32,
   .op .prom16u64, .op .prom16i32, .op .prom16i64, .op .prom32u64, .op .prom32i64, .op .dem64to16, .op .dem64to8,
   .op .dem32to8]

/-- Integer addition, subtraction and multiplication (42_integer_arithmetic.md R185-R204). -/
def addMulRows : List OpRow :=
  [.op .add8, .op .add16, .op .add32, .op .add64, .op .sub8, .op .sub16, .op .sub32, .op .sub64, .op .subr8,
   .op .subr16, .op .subr32, .op .subr64, .op .mulu8, .op .mulu16, .op .mulu32, .op .mulu64, .op .muli8, .op .muli16,
   .op .muli32, .op .muli64]

/-- Integer division and remainder (42_integer_arithmetic.md R205-R236). -/
def divModRows : List OpRow :=
  [.op .divu8, .op .divu16, .op .divu32, .op .divu64, .op .divru8, .op .divru16, .op .divru32, .op .divru64,
   .op .divi8, .op .divi16, .op .divi32, .op .divi64, .op .divri8, .op .divri16, .op .divri32, .op .divri64,
   .op .modu8, .op .modu16, .op .modu32, .op .modu64, .op .modru8, .op .modru16, .op .modru32, .op .modru64,
   .op .modi8, .op .modi16, .op .modi32, .op .modi64, .op .modri8, .op .modri16, .op .modri32, .op .modri64]

/-- Bitwise shift operations (43_shift_bitwise.md R254-R265). -/
def shiftRows : List OpRow :=
  [.op .lshift8, .op .lshift16, .op .lshift32, .op .lshift64, .op .rshiftu8, .op .rshiftu16, .op .rshiftu32,
   .op .rshiftu64, .op .rshifti8, .op .rshifti16, .op .rshifti32, .op .rshifti64]

/-- Bitwise logical operations (43_shift_bitwise.md R266-R281). -/
def bitwiseRows : List OpRow :=
  [.op .band8, .op .band16, .op .band32, .op .band64, .op .bor8, .op .bor16, .op .bor32, .op .bor64, .op .bxor8,
   .op .bxor16, .op .bxor32, .op .bxor64, .op .binv8, .op .binv16, .op .binv32, .op .binv64]

/-- Boolean logical operations (44_boolean_comparison.md R292-R303). -/
def booleanRows : List OpRow :=
  [.op .land8, .op .land16, .op .land32, .op .land64, .op .lor8, .op .lor16, .op .lor32, .op .lor64, .op .linv8,
   .op .linv16, .op .linv32, .op .linv64]

/-- Comparison operations (44_boolean_comparison.md R304-R343). -/
def compareRows : List OpRow :=
  [.op .ceq8, .op .ceq16, .op .ceq32, .op .ceq64, .op .cne8, .op .cne16, .op .cne32, .op .cne64, .op .cgtu8,
   .op .cgtu16, .op .cgtu32, .op .cgtu64, .op .cgti8, .op .cgti16, .op .cgti32, .op .cgti64, .op .cltu8, .op .cltu16,
   .op .cltu32, .op .cltu64, .op .clti8, .op .clti16, .op .clti32, .op .clti64, .op .cgteu8, .op .cgteu16,
   .op .cgteu32, .op .cgteu64, .op .cgtei8, .op .cgtei16, .op .cgtei32, .op .cgtei64, .op .clteu8, .op .clteu16,
   .op .clteu32, .op .clteu64, .op .cltei8, .op .cltei16, .op .cltei32, .op .cltei64]

/-- Function call and return (45_call_return.md R351-R353). -/
def callRetRows : List OpRow :=
  [.imm64 .call, .op .calls, .op .ret]

/-- Jump instructions (46_jump_branch.md R371-R375). -/
def jumpRows : List OpRow :=
  [.imm64 .jmp, .op .jmps, .imm8 .rjmpi8, .imm16 .rjmpi16, .imm32 .rjmpi32]

/-- Branching instructions (46_jump_branch.md R376-R391). -/
def branchRows : List OpRow :=
  [.imm64 .brz8, .imm64 .brz16, .imm64 .brz32, .imm64 .brz64, .imm8 .rbrz8i8, .imm16 .rbrz8i16, .imm32 .rbrz8i32,
   .imm8 .rbrz16i8, .imm16 .rbrz16i16, .imm32 .rbrz16i32, .imm8 .rbrz32i8, .imm16 .rbrz32i16, .imm32 .rbrz32i32,
   .imm8 .rbrz64i8, .imm16 .rbrz64i16, .imm32 .rbrz64i32]

/-- Memory operations: loads (47_memory_ops.md R402-R417). -/
def loadRows : List OpRow :=
  [.op .load8, .op .load16, .op .load32, .op .load64, .op .loadpop8, .op .loadpop16, .op .loadpop32, .op .loadpop64,
   .op .loadsfp8, .op .loadsfp16, .op .loadsfp32, .op .loadsfp64, .op .loadpopsfp8, .op .loadpopsfp16,
   .op .loadpopsfp32, .op .loadpopsfp64]

/-- Memory operations: stores, value on top (47_memory_ops.md R418-R433). -/
def storeRows : List OpRow :=
  [.op .store8, .op .store16, .op .store32, .op .store64, .op .storepop8, .op .storepop16, .op .storepop32,
   .op .storepop64, .op .storesfp8, .op .storesfp16, .op .storesfp32, .op .storesfp64, .op .storepopsfp8,
   .op .storepopsfp16, .op .storepopsfp32, .op .storepopsfp64]

/-- Memory operations: stores, address on top (47_memory_ops.md R434-R449). -/
def storerRows : List OpRow :=
  [.op .storer8, .op .storer16, .op .storer32, .op .storer64, .op .storerpop8, .op .storerpop16, .op .storerpop32,
   .op .storerpop64, .op .storersfp8, .op .storersfp16, .op .storersfp32, .op .storersfp64, .op .storerpopsfp8,
   .op .storerpopsfp16, .op .storerpopsfp32, .op .storerpopsfp64]

/-- Miscellaneous operations (48_misc.md R460-R467). -/
def miscRows : List OpRow :=
  [.imm64 .setsbp, .imm64 .setsfp, .imm64 .setsp, .imm64 .setslp, .op .nop, .op .ext, .op .halt, .op .invalid]

/-- The 255 rows in document order: row n has op code number n (R95). -/
def opTable : List OpRow :=
  pushRows ++ popRows ++ dupsetRows ++ promRows ++ addMulRows ++ divModRows ++ shiftRows ++ bitwiseRows ++
  booleanRows ++ compareRows ++ callRetRows ++ jumpRows ++ branchRows ++ loadRows ++ storeRows ++ storerRows ++
  miscRows

/-! ## Decoding -/

/-- Why bytes are no instruction. -/
inductive DecodeError where
  /-- There is no byte at all. -/
  | empty
  /-- The byte is OPC of no mnemonic (R96). -/
  | unassigned (b : Byte)
  /-- The immediate needs more bytes than there are. -/
  | truncated (need have_ : Nat)
deriving DecidableEq, Repr

/-- The row of an op code byte: that of the first mnemonic to which OPC gives it (R95; log 16). -/
def rowOf (opc : List Byte) (b : Byte) : Option OpRow :=
  match opc.idxOf? b with
  | none => none
  | some n => opTable[n]?

/-- The instruction at the head of a byte string, and the bytes after it (R90 to R93). -/
def decode (opc : List Byte) : List Byte → Except DecodeError (Instr × List Byte)
  | [] => .error .empty
  | b :: rest =>
    match rowOf opc b with
    | none => .error (.unassigned b)
    | some row =>
      if rest.length < row.immLen then .error (.truncated row.immLen rest.length)
      else .ok (row.build (leNat (rest.take row.immLen)), rest.drop row.immLen)

/-- The bytes of the longest instruction (format OP_I64, R91). -/
def maxLength : Nat := 9

/-- The instruction the decoder reads, under the default numbering, from the bytes of w, its lowest byte first, where
every bit from nbits on is 0. -/
def decodeTableWord (nbits w : Nat) : Option Instr :=
  match decode Config.defaultOpc (leBytes maxLength (w % 2 ^ nbits)) with
  | .ok (i, _) => some i
  | .error _ => none

/-! ## Encoding -/

/-- The op code number of an instruction: its mnemonic's place in document order, which the default numbering uses as
its op code byte (R95). -/
def Instr.number : Instr → Nat
  -- Push operations
  | .push8 _ => 0x00 | .push8asu16 _ => 0x01 | .push8asu32 _ => 0x02 | .push8asu64 _ => 0x03 | .push8asi16 _ => 0x04
  | .push8asi32 _ => 0x05 | .push8asi64 _ => 0x06 | .push16 _ => 0x07 | .push16asu32 _ => 0x08
  | .push16asu64 _ => 0x09 | .push16asi32 _ => 0x0A | .push16asi64 _ => 0x0B | .push32 _ => 0x0C
  | .push32asu64 _ => 0x0D | .push32asi64 _ => 0x0E | .push64 _ => 0x0F
  -- Pop operations
  | .pop8 => 0x10 | .pop16 => 0x11 | .pop32 => 0x12 | .pop64 => 0x13
  -- Duplication and set operations
  | .dup8 => 0x14 | .dup16 => 0x15 | .dup32 => 0x16 | .dup64 => 0x17 | .set8 => 0x18 | .set16 => 0x19
  | .set32 => 0x1A | .set64 => 0x1B
  -- Promotion and demotion operations
  | .prom8u16 => 0x1C | .prom8u32 => 0x1D | .prom8u64 => 0x1E | .prom8i16 => 0x1F | .prom8i32 => 0x20
  | .prom8i64 => 0x21 | .prom16u32 => 0x22 | .prom16u64 => 0x23 | .prom16i32 => 0x24 | .prom16i64 => 0x25
  | .prom32u64 => 0x26 | .prom32i64 => 0x27 | .dem64to16 => 0x28 | .dem64to8 => 0x29 | .dem32to8 => 0x2A
  -- Integer addition, subtraction and multiplication
  | .add8 => 0x2B | .add16 => 0x2C | .add32 => 0x2D | .add64 => 0x2E | .sub8 => 0x2F | .sub16 => 0x30
  | .sub32 => 0x31 | .sub64 => 0x32 | .subr8 => 0x33 | .subr16 => 0x34 | .subr32 => 0x35 | .subr64 => 0x36
  | .mulu8 => 0x37 | .mulu16 => 0x38 | .mulu32 => 0x39 | .mulu64 => 0x3A | .muli8 => 0x3B | .muli16 => 0x3C
  | .muli32 => 0x3D | .muli64 => 0x3E
  -- Integer division and remainder
  | .divu8 => 0x3F | .divu16 => 0x40 | .divu32 => 0x41 | .divu64 => 0x42 | .divru8 => 0x43 | .divru16 => 0x44
  | .divru32 => 0x45 | .divru64 => 0x46 | .divi8 => 0x47 | .divi16 => 0x48 | .divi32 => 0x49 | .divi64 => 0x4A
  | .divri8 => 0x4B | .divri16 => 0x4C | .divri32 => 0x4D | .divri64 => 0x4E | .modu8 => 0x4F | .modu16 => 0x50
  | .modu32 => 0x51 | .modu64 => 0x52 | .modru8 => 0x53 | .modru16 => 0x54 | .modru32 => 0x55 | .modru64 => 0x56
  | .modi8 => 0x57 | .modi16 => 0x58 | .modi32 => 0x59 | .modi64 => 0x5A | .modri8 => 0x5B | .modri16 => 0x5C
  | .modri32 => 0x5D | .modri64 => 0x5E
  -- Bitwise shift operations
  | .lshift8 => 0x5F | .lshift16 => 0x60 | .lshift32 => 0x61 | .lshift64 => 0x62 | .rshiftu8 => 0x63
  | .rshiftu16 => 0x64 | .rshiftu32 => 0x65 | .rshiftu64 => 0x66 | .rshifti8 => 0x67 | .rshifti16 => 0x68
  | .rshifti32 => 0x69 | .rshifti64 => 0x6A
  -- Bitwise logical operations
  | .band8 => 0x6B | .band16 => 0x6C | .band32 => 0x6D | .band64 => 0x6E | .bor8 => 0x6F | .bor16 => 0x70
  | .bor32 => 0x71 | .bor64 => 0x72 | .bxor8 => 0x73 | .bxor16 => 0x74 | .bxor32 => 0x75 | .bxor64 => 0x76
  | .binv8 => 0x77 | .binv16 => 0x78 | .binv32 => 0x79 | .binv64 => 0x7A
  -- Boolean logical operations
  | .land8 => 0x7B | .land16 => 0x7C | .land32 => 0x7D | .land64 => 0x7E | .lor8 => 0x7F | .lor16 => 0x80
  | .lor32 => 0x81 | .lor64 => 0x82 | .linv8 => 0x83 | .linv16 => 0x84 | .linv32 => 0x85 | .linv64 => 0x86
  -- Comparison operations
  | .ceq8 => 0x87 | .ceq16 => 0x88 | .ceq32 => 0x89 | .ceq64 => 0x8A | .cne8 => 0x8B | .cne16 => 0x8C
  | .cne32 => 0x8D | .cne64 => 0x8E | .cgtu8 => 0x8F | .cgtu16 => 0x90 | .cgtu32 => 0x91 | .cgtu64 => 0x92
  | .cgti8 => 0x93 | .cgti16 => 0x94 | .cgti32 => 0x95 | .cgti64 => 0x96 | .cltu8 => 0x97 | .cltu16 => 0x98
  | .cltu32 => 0x99 | .cltu64 => 0x9A | .clti8 => 0x9B | .clti16 => 0x9C | .clti32 => 0x9D | .clti64 => 0x9E
  | .cgteu8 => 0x9F | .cgteu16 => 0xA0 | .cgteu32 => 0xA1 | .cgteu64 => 0xA2 | .cgtei8 => 0xA3 | .cgtei16 => 0xA4
  | .cgtei32 => 0xA5 | .cgtei64 => 0xA6 | .clteu8 => 0xA7 | .clteu16 => 0xA8 | .clteu32 => 0xA9 | .clteu64 => 0xAA
  | .cltei8 => 0xAB | .cltei16 => 0xAC | .cltei32 => 0xAD | .cltei64 => 0xAE
  -- Function call and return
  | .call _ => 0xAF | .calls => 0xB0 | .ret => 0xB1
  -- Jump instructions
  | .jmp _ => 0xB2 | .jmps => 0xB3 | .rjmpi8 _ => 0xB4 | .rjmpi16 _ => 0xB5 | .rjmpi32 _ => 0xB6
  -- Branching instructions
  | .brz8 _ => 0xB7 | .brz16 _ => 0xB8 | .brz32 _ => 0xB9 | .brz64 _ => 0xBA | .rbrz8i8 _ => 0xBB
  | .rbrz8i16 _ => 0xBC | .rbrz8i32 _ => 0xBD | .rbrz16i8 _ => 0xBE | .rbrz16i16 _ => 0xBF | .rbrz16i32 _ => 0xC0
  | .rbrz32i8 _ => 0xC1 | .rbrz32i16 _ => 0xC2 | .rbrz32i32 _ => 0xC3 | .rbrz64i8 _ => 0xC4 | .rbrz64i16 _ => 0xC5
  | .rbrz64i32 _ => 0xC6
  -- Memory operations: loads
  | .load8 => 0xC7 | .load16 => 0xC8 | .load32 => 0xC9 | .load64 => 0xCA | .loadpop8 => 0xCB | .loadpop16 => 0xCC
  | .loadpop32 => 0xCD | .loadpop64 => 0xCE | .loadsfp8 => 0xCF | .loadsfp16 => 0xD0 | .loadsfp32 => 0xD1
  | .loadsfp64 => 0xD2 | .loadpopsfp8 => 0xD3 | .loadpopsfp16 => 0xD4 | .loadpopsfp32 => 0xD5 | .loadpopsfp64 => 0xD6
  -- Memory operations: stores, value on top
  | .store8 => 0xD7 | .store16 => 0xD8 | .store32 => 0xD9 | .store64 => 0xDA | .storepop8 => 0xDB
  | .storepop16 => 0xDC | .storepop32 => 0xDD | .storepop64 => 0xDE | .storesfp8 => 0xDF | .storesfp16 => 0xE0
  | .storesfp32 => 0xE1 | .storesfp64 => 0xE2 | .storepopsfp8 => 0xE3 | .storepopsfp16 => 0xE4
  | .storepopsfp32 => 0xE5 | .storepopsfp64 => 0xE6
  -- Memory operations: stores, address on top
  | .storer8 => 0xE7 | .storer16 => 0xE8 | .storer32 => 0xE9 | .storer64 => 0xEA | .storerpop8 => 0xEB
  | .storerpop16 => 0xEC | .storerpop32 => 0xED | .storerpop64 => 0xEE | .storersfp8 => 0xEF | .storersfp16 => 0xF0
  | .storersfp32 => 0xF1 | .storersfp64 => 0xF2 | .storerpopsfp8 => 0xF3 | .storerpopsfp16 => 0xF4
  | .storerpopsfp32 => 0xF5 | .storerpopsfp64 => 0xF6
  -- Miscellaneous operations
  | .setsbp _ => 0xF7 | .setsfp _ => 0xF8 | .setsp _ => 0xF9 | .setslp _ => 0xFA | .nop => 0xFB | .ext => 0xFC
  | .halt => 0xFD | .invalid => 0xFE

/-- The bytes of the immediate, least significant first; none for the format OP (R91 to R93). -/
def Instr.immBytes : Instr → List Byte
  | .push8 imm | .push8asu16 imm | .push8asu32 imm | .push8asu64 imm | .push8asi16 imm | .push8asi32 imm
  | .push8asi64 imm | .rjmpi8 imm | .rbrz8i8 imm | .rbrz16i8 imm | .rbrz32i8 imm | .rbrz64i8 imm =>
    leBytes 1 imm.toNat
  | .push16 imm | .push16asu32 imm | .push16asu64 imm | .push16asi32 imm | .push16asi64 imm | .rjmpi16 imm
  | .rbrz8i16 imm | .rbrz16i16 imm | .rbrz32i16 imm | .rbrz64i16 imm =>
    leBytes 2 imm.toNat
  | .push32 imm | .push32asu64 imm | .push32asi64 imm | .rjmpi32 imm | .rbrz8i32 imm | .rbrz16i32 imm
  | .rbrz32i32 imm | .rbrz64i32 imm =>
    leBytes 4 imm.toNat
  | .push64 imm | .call imm | .jmp imm | .brz8 imm | .brz16 imm | .brz32 imm | .brz64 imm | .setsbp imm | .setsfp imm
  | .setsp imm | .setslp imm =>
    leBytes 8 imm.toNat
  | .pop8 | .pop16 | .pop32 | .pop64 | .dup8 | .dup16 | .dup32 | .dup64 | .set8 | .set16 | .set32 | .set64
  | .prom8u16 | .prom8u32 | .prom8u64 | .prom8i16 | .prom8i32 | .prom8i64 | .prom16u32 | .prom16u64 | .prom16i32
  | .prom16i64 | .prom32u64 | .prom32i64 | .dem64to16 | .dem64to8 | .dem32to8 | .add8 | .add16 | .add32 | .add64
  | .sub8 | .sub16 | .sub32 | .sub64 | .subr8 | .subr16 | .subr32 | .subr64 | .mulu8 | .mulu16 | .mulu32 | .mulu64
  | .muli8 | .muli16 | .muli32 | .muli64 | .divu8 | .divu16 | .divu32 | .divu64 | .divru8 | .divru16 | .divru32
  | .divru64 | .divi8 | .divi16 | .divi32 | .divi64 | .divri8 | .divri16 | .divri32 | .divri64 | .modu8 | .modu16
  | .modu32 | .modu64 | .modru8 | .modru16 | .modru32 | .modru64 | .modi8 | .modi16 | .modi32 | .modi64 | .modri8
  | .modri16 | .modri32 | .modri64 | .lshift8 | .lshift16 | .lshift32 | .lshift64 | .rshiftu8 | .rshiftu16
  | .rshiftu32 | .rshiftu64 | .rshifti8 | .rshifti16 | .rshifti32 | .rshifti64 | .band8 | .band16 | .band32 | .band64
  | .bor8 | .bor16 | .bor32 | .bor64 | .bxor8 | .bxor16 | .bxor32 | .bxor64 | .binv8 | .binv16 | .binv32 | .binv64
  | .land8 | .land16 | .land32 | .land64 | .lor8 | .lor16 | .lor32 | .lor64 | .linv8 | .linv16 | .linv32 | .linv64
  | .ceq8 | .ceq16 | .ceq32 | .ceq64 | .cne8 | .cne16 | .cne32 | .cne64 | .cgtu8 | .cgtu16 | .cgtu32 | .cgtu64
  | .cgti8 | .cgti16 | .cgti32 | .cgti64 | .cltu8 | .cltu16 | .cltu32 | .cltu64 | .clti8 | .clti16 | .clti32
  | .clti64 | .cgteu8 | .cgteu16 | .cgteu32 | .cgteu64 | .cgtei8 | .cgtei16 | .cgtei32 | .cgtei64 | .clteu8
  | .clteu16 | .clteu32 | .clteu64 | .cltei8 | .cltei16 | .cltei32 | .cltei64 | .calls | .ret | .jmps | .load8
  | .load16 | .load32 | .load64 | .loadpop8 | .loadpop16 | .loadpop32 | .loadpop64 | .loadsfp8 | .loadsfp16
  | .loadsfp32 | .loadsfp64 | .loadpopsfp8 | .loadpopsfp16 | .loadpopsfp32 | .loadpopsfp64 | .store8 | .store16
  | .store32 | .store64 | .storepop8 | .storepop16 | .storepop32 | .storepop64 | .storesfp8 | .storesfp16
  | .storesfp32 | .storesfp64 | .storepopsfp8 | .storepopsfp16 | .storepopsfp32 | .storepopsfp64 | .storer8
  | .storer16 | .storer32 | .storer64 | .storerpop8 | .storerpop16 | .storerpop32 | .storerpop64 | .storersfp8
  | .storersfp16 | .storersfp32 | .storersfp64 | .storerpopsfp8 | .storerpopsfp16 | .storerpopsfp32 | .storerpopsfp64
  | .nop | .ext | .halt | .invalid =>
    []

/-- The length L of an instruction in bytes (R90). -/
def Instr.length (i : Instr) : Nat := 1 + i.immBytes.length

/-- The bytes of an instruction, in the order of their addresses. -/
def encode (opc : List Byte) (i : Instr) : List Byte := opc.getD i.number 0xFF :: i.immBytes

end Sys2Proof
end

