-- ==== Sys2Proof/Machine/State.lean ====
section
/-! DEFINITION. The state of the machine (spec 10_state.md), the reasons a step can stop, launch and reset. -/

namespace Sys2Proof.Machine

/-- The seven fault causes of 60_exceptions.md R481. AccessFault and FrameFault record a byte address (R483). -/
inductive FaultCause where
  /-- The op code byte is OPC of invalid, of ext, or of no mnemonic. -/
  | invalidInstruction
  /-- An access touches a byte address for which MAPPED is false: the first one in access order. -/
  | accessFault (addr : Addr)
  /-- A data access touches a byte of the protected window: the first one in access order. -/
  | frameFault (addr : Addr)
  /-- The stack would be popped above SBP. -/
  | stackUnderflow
  /-- The stack would grow below SLP. -/
  | stackOverflow
  /-- The divisor of a division or remainder is zero. -/
  | divideByZero
  /-- The most negative value is divided by -1 and DIV_OVERFLOW is fault. -/
  | divideOverflow
deriving DecidableEq, Repr

/-- The run status (10_state.md R31). -/
inductive Status where
  | running
  | halted
  | faulted (cause : FaultCause)
deriving DecidableEq, Repr

/-- Memory as the list of the bytes that differ from Config.unlistedByte, by rising address (10_state.md R32). -/
abbrev Memory := List Host.Cell

/-- The state of the machine, complete by 10_state.md R20, and the launch parameters beside it. -/
structure State where
  /-- Program Counter: the address of the current instruction's op code byte (R23). -/
  pc : Addr
  /-- Stack Bottom Pointer: one past the highest byte of stack data (R25). -/
  sbp : Addr
  /-- Stack Frame Pointer: the address just above the current frame, of RETA and PSFP (R27). -/
  sfp : Addr
  /-- Stack Pointer: the address of the lowest byte of the top element (R24). -/
  sp : Addr
  /-- Stack Limit Pointer: the lowest address stack data may occupy (R26). -/
  slp : Addr
  /-- The one memory: instructions, immediates, stack and data (20_memory.md R50). -/
  mem : Memory
  /-- The run status (R31). -/
  status : Status
  /-- The launch parameters, which no step changes (60_exceptions.md R497; log 15). -/
  cfg : Platform
deriving DecidableEq, Repr

/-- Why step takes no step. No meaning of an instruction raises one: a fault of the spec is a next state whose status is
Faulted (log 11). -/
inductive Fault where
  /-- Raised by step, of a machine whose status is Halted: it takes no step (30_encoding.md R94). Safe. -/
  | halted
  /-- Raised by step, of a machine whose status is Faulted: it takes no step (60_exceptions.md R484). Safe. -/
  | faulted (cause : FaultCause)
deriving DecidableEq, Repr

/-- The spec has no refused outcome (60_exceptions.md R496). -/
inductive Refusal where
  /-- Raised by an arm of exec that has no meaning: there is none. Safe. -/
  | notModelled (mnemonic : String)
deriving DecidableEq, Repr

/-- The launch state for given launch parameters (10_state.md R35, 70_reset_and_hazards.md R520). -/
def State.launch (cfg : Platform) (image : Memory) (resetPc sbp sfp sp slp : Addr) : State :=
  { pc := resetPc, sbp := sbp, sfp := sfp, sp := sp, slp := slp, mem := image, status := .running, cfg := cfg }

/-- The machine right after reset: the launch with the default configuration, an empty image and, DESIGN CHOICE, RESET_PC
(log 2), 0 in each of the four stack registers (log 1) and no listed byte (logs 3 and 4). -/
def State.reset : State := State.launch Config.defaultPlatform [] Config.resetPc 0 0 0 0

end Sys2Proof.Machine
end

