-- ==== Sys2Proof/Machine/Ops.lean ====
section
/-! DEFINITION. The named operations over memory and registers (spec 20_memory.md), the named updates of the state, and fault
entry (60_exceptions.md R483). There is no return from a fault (R484). -/

namespace Sys2Proof.Machine

/-! ## Memory -/

/-- The byte at an address. -/
def Memory.get : Memory → Nat → Byte
  | [], _ => Config.unlistedByte
  | (k, b) :: m, a => if a = k then b else Memory.get m a

/-- The memory with no entry for an address. -/
def Memory.erase (m : Memory) (a : Nat) : Memory := m.filter fun c => c.1 ≠ a

/-- The memory with an entry for an address, at its place in the rising order. -/
def Memory.insert : Memory → Nat → Byte → Memory
  | [], a, b => [(a, b)]
  | (k, c) :: m, a, b =>
    if a < k then (a, b) :: (k, c) :: m
    else if a = k then (a, b) :: m
    else (k, c) :: Memory.insert m a b

/-- Writing one byte. A byte that equals what an unlisted address reads as is not listed. -/
def Memory.set (m : Memory) (a : Nat) (b : Byte) : Memory :=
  if b = Config.unlistedByte then m.erase a else m.insert a b

/-- The canonical form: 64-bit addresses, strictly rising, and no byte that an unlisted address would read as. -/
def Memory.wf (m : Memory) : Bool :=
  decide (m.Pairwise fun c d => c.1 < d.1) && m.all fun c => decide (c.1 < 2 ^ 64) && decide (c.2 ≠ Config.unlistedByte)

/-- LE(addr, n) as a number: byte i is at (addr + i) mod 2^64, byte 0 the least significant (R52). -/
def Memory.loadLE (m : Memory) (a : Addr) : Nat → Nat
  | 0 => 0
  | n + 1 => (m.get a.toNat).toNat + 256 * m.loadLE (a + 1) n

/-- Storing the n low bytes of v at addr, byte i at (addr + i) mod 2^64 (R52). -/
def Memory.storeLE (m : Memory) (a : Addr) : Nat → Nat → Memory
  | 0, _ => m
  | n + 1, v => (m.set a.toNat (BitVec.ofNat 8 v)).storeLE (a + 1) n (v / 256)

/-- The n bytes from an address on, in the order of their addresses. -/
def Memory.bytesAt (m : Memory) (a : Addr) : Nat → List Byte
  | 0 => []
  | n + 1 => m.get a.toNat :: m.bytesAt (a + 1) n

/-- The memory with the bytes of a table word at an address, every bit of it from nbits on being 0, up to the longest
instruction. -/
def Memory.placeWord (m : Memory) (a : Addr) (nbits w : Nat) : Memory := m.storeLE a maxLength (w % 2 ^ nbits)

/-- The element of a width at an address (R62). -/
def State.elem (s : State) (a : Addr) (w : Width) : Elem w := BitVec.ofNat w.bits (s.mem.loadLE a w.bytes)

/-! ## Checks -/

/-- The address belongs to the range. -/
def inRange (r : AddrRange) (a : Addr) : Bool := decide (r.lo ≤ a) && decide (a ≤ r.hi)

/-- MAPPED (R55). -/
def State.mapped (s : State) (a : Addr) : Bool := s.cfg.holes.all fun r => !inRange r a

/-- The protected window: the 16 addresses (SFP + i) mod 2^64 (R60). -/
def State.inWindow (s : State) (a : Addr) : Bool := decide ((a - s.sfp).toNat < 16)

/-- The first of the n addresses from a on, in access order, of which p holds. -/
def firstIn (p : Addr → Bool) (a : Addr) : Nat → Option Addr
  | 0 => none
  | n + 1 => if p a then some a else firstIn p (a + 1) n

/-- The protection check of an access (R60). -/
def frameCheck (s : State) (a : Addr) (n : Nat) : Except FaultCause Unit :=
  match firstIn s.inWindow a n with
  | some x => .error (.frameFault x)
  | none => .ok ()

/-- The MAPPED check of an access (R55). -/
def mapCheck (s : State) (a : Addr) (n : Nat) : Except FaultCause Unit :=
  match firstIn (fun x => !s.mapped x) a n with
  | some x => .error (.accessFault x)
  | none => .ok ()

/-- StackCheck(in, out), on unbounded integers (R61). -/
def stackCheck (s : State) (nIn nOut : Nat) : Except FaultCause Unit :=
  if (s.sp.toNat : Int) + nIn > s.sbp.toNat then .error .stackUnderflow
  else if (s.sp.toNat : Int) + nIn - nOut < s.slp.toNat then .error .stackOverflow
  else .ok ()

/-- The check of ret's new SP, SFP + 16, on unbounded integers (45_call_return.md R353). -/
def frameStackCheck (s : State) : Except FaultCause Unit :=
  if (s.sfp.toNat : Int) + 16 > s.sbp.toNat then .error .stackUnderflow
  else if (s.sfp.toNat : Int) + 16 < s.slp.toNat then .error .stackOverflow
  else .ok ()

/-! ## Accesses -/

/-- Fetch(addr, n), not subject to the protection (R56). -/
def fetch (s : State) (a : Addr) (n : Nat) : Except FaultCause Nat := do
  mapCheck s a n
  return s.mem.loadLE a n

/-- MemRead, of an element (R57). It reads the memory from before the instruction (R63). -/
def memRead (s : State) (a : Addr) (w : Width) : Except FaultCause (Elem w) := do
  frameCheck s a w.bytes
  mapCheck s a w.bytes
  return s.elem a w

/-- MemWrite, of an element, into the memory m in which the writes recorded so far are applied (R58, R63). The checks are
those of the state before the instruction. -/
def memWrite (s : State) (m : Memory) (a : Addr) (w : Width) (v : Elem w) : Except FaultCause Memory := do
  frameCheck s a w.bytes
  mapCheck s a w.bytes
  return m.storeLE a w.bytes v.toNat

/-- RawRead, of an element: no protection check (R59). -/
def rawRead (s : State) (a : Addr) (w : Width) : Except FaultCause (Elem w) := do
  mapCheck s a w.bytes
  return s.elem a w

/-- The fetch and decode of one step (30_encoding.md R94): the op code byte, then its instruction, then the immediate. -/
def fetchInstr (s : State) : Except FaultCause Instr := do
  let b ← fetch s s.pc 1
  match rowOf s.cfg.opc (BitVec.ofNat 8 b) with
  | none => .error .invalidInstruction
  | some row => return row.build (← fetch s (s.pc + 1) row.immLen)

/-! ## Updates of the state -/

/-- Memory, SP and PC change together when an instruction completes. -/
def State.put (s : State) (m : Memory) (sp pc : Addr) : State := { s with mem := m, sp := sp, pc := pc }

/-- Only PC changes. -/
def State.setPc (s : State) (pc : Addr) : State := { s with pc := pc }

/-- A call's new frame: SFP becomes the new SP (45_call_return.md R351, R352). -/
def State.enterFrame (s : State) (m : Memory) (sp pc : Addr) : State := { s with mem := m, sp := sp, sfp := sp, pc := pc }

/-- A return to the caller's frame (45_call_return.md R353). -/
def State.leaveFrame (s : State) (sp sfp pc : Addr) : State := { s with sp := sp, sfp := sfp, pc := pc }

/-- SBP is written (48_misc.md R460). -/
def State.setSbp (s : State) (v pc : Addr) : State := { s with sbp := v, pc := pc }

/-- SFP is written (48_misc.md R461). -/
def State.setSfp (s : State) (v pc : Addr) : State := { s with sfp := v, pc := pc }

/-- SP is written (48_misc.md R462). -/
def State.setSp (s : State) (v pc : Addr) : State := { s with sp := v, pc := pc }

/-- SLP is written (48_misc.md R463). -/
def State.setSlp (s : State) (v pc : Addr) : State := { s with slp := v, pc := pc }

/-- The processor is halted, PC as it was (48_misc.md R466). -/
def State.halt (s : State) : State := { s with status := .halted }

/-- Fault entry: the status records the cause, and nothing else changes (60_exceptions.md R483). -/
def State.raise (s : State) (c : FaultCause) : State := { s with status := .faulted c }

/-- The code of a cause (60_exceptions.md R481); stored nowhere in the machine. -/
def FaultCause.code : FaultCause → Nat
  | .invalidInstruction => 1
  | .accessFault _ => 2
  | .frameFault _ => 3
  | .stackUnderflow => 4
  | .stackOverflow => 5
  | .divideByZero => 6
  | .divideOverflow => 7

/-- What meanings answer. -/
abbrev Result := Host.Outcome State Fault Refusal

/-- The end of an instruction that began in s: its effects apply together, or it raised and only the status changes
(30_encoding.md R94, 20_memory.md R63). -/
def finish (s : State) : Except FaultCause State → Result
  | .ok t => .next t
  | .error c => .next (s.raise c)

end Sys2Proof.Machine
end

