-- ==== Sys2Proof/Machine/Operands.lean ====
section
/-! DEFINITION. Operand forms: widening and narrowing, effective addresses, and the shapes in which instructions take elements
from the stack and leave elements on it (spec 00_scope.md R7, R10; 20_memory.md R62, R63; 47_memory_ops.md R400). In every
shape: StackCheck, then the reads, the top element first, then the writes. -/

namespace Sys2Proof.Machine

/-! ## Widening and narrowing (00_scope.md R7) -/

/-- zext: widening with zeros. -/
def zext (w : Width) {n : Nat} (v : BitVec n) : Elem w := v.setWidth w.bits

/-- sext: widening with copies of the sign bit. -/
def sext (w : Width) {n : Nat} (v : BitVec n) : Elem w := v.signExtend w.bits

/-- trunc: the low bits (41_promotion_demotion.md R160). -/
def trunc (w : Width) {n : Nat} (v : BitVec n) : Elem w := v.setWidth w.bits

/-- A relative target: the sign-extended offset from the address of the jump itself (46_jump_branch.md R370). -/
def relTarget (s : State) {n : Nat} (offset : BitVec n) : Addr := s.pc + offset.signExtend 64

/-- An address n bytes further, modulo 2^64 (20_memory.md R54). -/
def up (a : Addr) (n : Nat) : Addr := a + BitVec.ofNat 64 n

/-- An address n bytes lower, modulo 2^64 (20_memory.md R54). -/
def down (a : Addr) (n : Nat) : Addr := a - BitVec.ofNat 64 n

/-! ## Shapes of stack instructions -/

/-- SP after nIn bytes are popped and nOut bytes are pushed: where the result lies (20_memory.md R62). -/
def resultAddr (s : State) (nIn nOut : Nat) : Addr := down (up s.sp nIn) nOut

/-- The result element takes the place of nIn bytes of operands on top of the stack; PC advances by len. -/
def putElem (s : State) (nIn : Nat) (w : Width) (v : Elem w) (len : Nat) : Except FaultCause State := do
  let m ← memWrite s s.mem (resultAddr s nIn w.bytes) w v
  return s.put m (resultAddr s nIn w.bytes) (up s.pc len)

/-- An element is pushed. -/
def pushElem (w : Width) (v : Elem w) (len : Nat) (s : State) : Result :=
  finish s do
    stackCheck s 0 w.bytes
    putElem s 0 w v len

/-- The top element is popped without being read (20_memory.md R62). -/
def popElem (w : Width) (s : State) : Result :=
  finish s do
    stackCheck s w.bytes 0
    return s.put s.mem (up s.sp w.bytes) (up s.pc 1)

/-- The top element is pushed again. -/
def dupElem (w : Width) (s : State) : Result :=
  finish s do
    stackCheck s w.bytes (2 * w.bytes)
    let a ← memRead s s.sp w
    putElem s 0 w a 1

/-- The top element replaces itself and the one beneath it, which is not read. -/
def setElem (w : Width) (s : State) : Result :=
  finish s do
    stackCheck s (2 * w.bytes) w.bytes
    let b ← memRead s s.sp w
    putElem s (2 * w.bytes) w b 1

/-- One element of width wa becomes one of width wr. -/
def unary (wa wr : Width) (f : Elem wa → Elem wr) (s : State) : Result :=
  finish s do
    stackCheck s wa.bytes wr.bytes
    let a ← memRead s s.sp wa
    putElem s wa.bytes wr (f a) 1

/-- Two elements, a of width wa beneath b of width wb, become one of width wr, or raise. -/
def binary (wa wb wr : Width) (f : Elem wa → Elem wb → Except FaultCause (Elem wr)) (s : State) : Result :=
  finish s do
    stackCheck s (wa.bytes + wb.bytes) wr.bytes
    let b ← memRead s s.sp wb
    let a ← memRead s (up s.sp wb.bytes) wa
    let r ← f a b
    putElem s (wa.bytes + wb.bytes) wr r 1

/-- A binary instruction that computes without raising. -/
def binaryPure (wa wb wr : Width) (f : Elem wa → Elem wb → Elem wr) (s : State) : Result :=
  binary wa wb wr (fun a b => .ok (f a b)) s

/-! ## Loads and stores (47_memory_ops.md R400, R401) -/

/-- How the 64-bit address operand names memory. -/
inductive AddrMode where
  /-- It is the address. -/
  | absolute
  /-- It is an offset from SFP. -/
  | sfp
deriving DecidableEq, Repr

/-- The effective address. -/
def effAddr (s : State) (mode : AddrMode) (operand : Addr) : Addr :=
  match mode with
  | .absolute => operand
  | .sfp => s.sfp + operand

/-- A load that leaves the address on the stack and pushes the value. -/
def loadKeep (w : Width) (mode : AddrMode) (s : State) : Result :=
  finish s do
    stackCheck s 8 (8 + w.bytes)
    let a ← memRead s s.sp .w64
    let v ← memRead s (effAddr s mode a) w
    putElem s 0 w v 1

/-- A load whose value replaces the address. -/
def loadPop (w : Width) (mode : AddrMode) (s : State) : Result :=
  finish s do
    stackCheck s 8 w.bytes
    let a ← memRead s s.sp .w64
    let v ← memRead s (effAddr s mode a) w
    putElem s 8 w v 1

/-- A store of the top element, the address beneath it; nPop bytes are popped: 0 or the value's. -/
def storeTop (w : Width) (mode : AddrMode) (nPop : Nat) (s : State) : Result :=
  finish s do
    stackCheck s (8 + w.bytes) (8 + w.bytes - nPop)
    let b ← memRead s s.sp w
    let a ← memRead s (up s.sp w.bytes) .w64
    let m ← memWrite s s.mem (effAddr s mode a) w b
    return s.put m (up s.sp nPop) (up s.pc 1)

/-- A store of the element beneath the address; nPop bytes are popped: 0 or the address's 8. -/
def storeBeneath (w : Width) (mode : AddrMode) (nPop : Nat) (s : State) : Result :=
  finish s do
    stackCheck s (8 + w.bytes) (8 + w.bytes - nPop)
    let b ← memRead s s.sp .w64
    let a ← memRead s (up s.sp 8) w
    let m ← memWrite s s.mem (effAddr s mode b) w a
    return s.put m (up s.sp nPop) (up s.pc 1)

/-! ## Branches (46_jump_branch.md R370) -/

/-- An element is popped, and control goes to the target if it is zero, else to the next instruction. -/
def branchZero (w : Width) (target : Addr) (len : Nat) (s : State) : Result :=
  finish s do
    stackCheck s w.bytes 0
    let a ← memRead s s.sp w
    return s.put s.mem (up s.sp w.bytes) (if a = 0 then target else up s.pc len)

end Sys2Proof.Machine
end

