-- ==== Sys2Proof/Machine/Arith.lean ====
section
/-! DEFINITION. Integer arithmetic operations (spec 42_integer_arithmetic.md R180 to R236). -/

namespace Sys2Proof.Machine

/-! ## Arithmetic on N-bit patterns (R180 to R184) -/

/-- The sum modulo 2^N (R180). -/
def addElem {n : Nat} (a b : BitVec n) : BitVec n := BitVec.ofNat n (a.toNat + b.toNat)

/-- The difference a - b modulo 2^N (R180). -/
def subElem {n : Nat} (a b : BitVec n) : BitVec n := BitVec.ofInt n ((a.toNat : Int) - b.toNat)

/-- The product of the unsigned integers, modulo 2^N (R181). -/
def muluElem {n : Nat} (a b : BitVec n) : BitVec n := BitVec.ofNat n (a.toNat * b.toNat)

/-- The product of the signed integers, modulo 2^N (R181). -/
def muliElem {n : Nat} (a b : BitVec n) : BitVec n := BitVec.ofInt n (a.toInt * b.toInt)

/-- The check of the divisor y of an unsigned division or remainder (R183). -/
def divisorCheck {n : Nat} (y : BitVec n) : Except FaultCause Unit :=
  if y = 0 then .error .divideByZero else .ok ()

/-- MIN_N, the least signed integer of N bits (R184). -/
def minInt (n : Nat) : Int := -(2 : Int) ^ (n - 1)

/-- The checks of the dividend x and the divisor y of a signed division or remainder (R183, R184). -/
def signedDivCheck (o : DivOverflow) {n : Nat} (x y : BitVec n) : Except FaultCause Unit := do
  divisorCheck y
  if o = .fault ∧ x.toInt = minInt n ∧ y.toInt = -1 then .error .divideOverflow else .ok ()

/-- The unsigned quotient x / y (R182). -/
def quotU {n : Nat} (x y : BitVec n) : Except FaultCause (BitVec n) := do
  divisorCheck y
  return BitVec.ofNat n (x.toNat / y.toNat)

/-- The unsigned remainder x % y (R182). -/
def remU {n : Nat} (x y : BitVec n) : Except FaultCause (BitVec n) := do
  divisorCheck y
  return BitVec.ofNat n (x.toNat % y.toNat)

/-- The exact quotient x / y of the signed integers, its fraction discarded (R182). -/
def quotInt {n : Nat} (x y : BitVec n) : Int := x.toInt.tdiv y.toInt

/-- The signed quotient x / y modulo 2^N: MIN_N where it overflows and DIV_OVERFLOW is wrap (R182, R184). -/
def quotI (o : DivOverflow) {n : Nat} (x y : BitVec n) : Except FaultCause (BitVec n) := do
  signedDivCheck o x y
  return BitVec.ofInt n (quotInt x y)

/-- The signed remainder x % y: 0 where the quotient overflows and DIV_OVERFLOW is wrap (R182, R184). -/
def remI (o : DivOverflow) {n : Nat} (x y : BitVec n) : Except FaultCause (BitVec n) := do
  signedDivCheck o x y
  return BitVec.ofInt n (x.toInt - quotInt x y * y.toInt)

/-! ## The instructions -/

/-- add8: add, 8-bit (R185). -/
def execAdd8 (s : State) : Result := binaryPure .w8 .w8 .w8 addElem s

/-- add16: add, 16-bit (R186). -/
def execAdd16 (s : State) : Result := binaryPure .w16 .w16 .w16 addElem s

/-- add32: add, 32-bit (R187). -/
def execAdd32 (s : State) : Result := binaryPure .w32 .w32 .w32 addElem s

/-- add64: add, 64-bit (R188). -/
def execAdd64 (s : State) : Result := binaryPure .w64 .w64 .w64 addElem s

/-- sub8: subtract (a - b), 8-bit (R189). -/
def execSub8 (s : State) : Result := binaryPure .w8 .w8 .w8 subElem s

/-- sub16: subtract (a - b), 16-bit (R190). -/
def execSub16 (s : State) : Result := binaryPure .w16 .w16 .w16 subElem s

/-- sub32: subtract (a - b), 32-bit (R191). -/
def execSub32 (s : State) : Result := binaryPure .w32 .w32 .w32 subElem s

/-- sub64: subtract (a - b), 64-bit (R192). -/
def execSub64 (s : State) : Result := binaryPure .w64 .w64 .w64 subElem s

/-- subr8: subtract, order reversed (b - a), 8-bit (R193). -/
def execSubr8 (s : State) : Result := binaryPure .w8 .w8 .w8 (fun a b => subElem b a) s

/-- subr16: subtract, order reversed (b - a), 16-bit (R194). -/
def execSubr16 (s : State) : Result := binaryPure .w16 .w16 .w16 (fun a b => subElem b a) s

/-- subr32: subtract, order reversed (b - a), 32-bit (R195). -/
def execSubr32 (s : State) : Result := binaryPure .w32 .w32 .w32 (fun a b => subElem b a) s

/-- subr64: subtract, order reversed (b - a), 64-bit (R196). -/
def execSubr64 (s : State) : Result := binaryPure .w64 .w64 .w64 (fun a b => subElem b a) s

/-- mulu8: multiply, unsigned, 8-bit (R197). -/
def execMulu8 (s : State) : Result := binaryPure .w8 .w8 .w8 muluElem s

/-- mulu16: multiply, unsigned, 16-bit (R198). -/
def execMulu16 (s : State) : Result := binaryPure .w16 .w16 .w16 muluElem s

/-- mulu32: multiply, unsigned, 32-bit (R199). -/
def execMulu32 (s : State) : Result := binaryPure .w32 .w32 .w32 muluElem s

/-- mulu64: multiply, unsigned, 64-bit (R200). -/
def execMulu64 (s : State) : Result := binaryPure .w64 .w64 .w64 muluElem s

/-- muli8: multiply, signed, 8-bit (R201). -/
def execMuli8 (s : State) : Result := binaryPure .w8 .w8 .w8 muliElem s

/-- muli16: multiply, signed, 16-bit (R202). -/
def execMuli16 (s : State) : Result := binaryPure .w16 .w16 .w16 muliElem s

/-- muli32: multiply, signed, 32-bit (R203). -/
def execMuli32 (s : State) : Result := binaryPure .w32 .w32 .w32 muliElem s

/-- muli64: multiply, signed, 64-bit (R204). -/
def execMuli64 (s : State) : Result := binaryPure .w64 .w64 .w64 muliElem s

/-- divu8: divide, unsigned (a / b), 8-bit (R205). -/
def execDivu8 (s : State) : Result := binary .w8 .w8 .w8 (fun a b => quotU a b) s

/-- divu16: divide, unsigned (a / b), 16-bit (R206). -/
def execDivu16 (s : State) : Result := binary .w16 .w16 .w16 (fun a b => quotU a b) s

/-- divu32: divide, unsigned (a / b), 32-bit (R207). -/
def execDivu32 (s : State) : Result := binary .w32 .w32 .w32 (fun a b => quotU a b) s

/-- divu64: divide, unsigned (a / b), 64-bit (R208). -/
def execDivu64 (s : State) : Result := binary .w64 .w64 .w64 (fun a b => quotU a b) s

/-- divru8: divide, unsigned, order reversed (b / a), 8-bit (R209). -/
def execDivru8 (s : State) : Result := binary .w8 .w8 .w8 (fun a b => quotU b a) s

/-- divru16: divide, unsigned, order reversed (b / a), 16-bit (R210). -/
def execDivru16 (s : State) : Result := binary .w16 .w16 .w16 (fun a b => quotU b a) s

/-- divru32: divide, unsigned, order reversed (b / a), 32-bit (R211). -/
def execDivru32 (s : State) : Result := binary .w32 .w32 .w32 (fun a b => quotU b a) s

/-- divru64: divide, unsigned, order reversed (b / a), 64-bit (R212). -/
def execDivru64 (s : State) : Result := binary .w64 .w64 .w64 (fun a b => quotU b a) s

/-- divi8: divide, signed (a / b), 8-bit (R213). -/
def execDivi8 (s : State) : Result := binary .w8 .w8 .w8 (fun a b => quotI s.cfg.divOverflow a b) s

/-- divi16: divide, signed (a / b), 16-bit (R214). -/
def execDivi16 (s : State) : Result := binary .w16 .w16 .w16 (fun a b => quotI s.cfg.divOverflow a b) s

/-- divi32: divide, signed (a / b), 32-bit (R215). -/
def execDivi32 (s : State) : Result := binary .w32 .w32 .w32 (fun a b => quotI s.cfg.divOverflow a b) s

/-- divi64: divide, signed (a / b), 64-bit (R216). -/
def execDivi64 (s : State) : Result := binary .w64 .w64 .w64 (fun a b => quotI s.cfg.divOverflow a b) s

/-- divri8: divide, signed, order reversed (b / a), 8-bit (R217). -/
def execDivri8 (s : State) : Result := binary .w8 .w8 .w8 (fun a b => quotI s.cfg.divOverflow b a) s

/-- divri16: divide, signed, order reversed (b / a), 16-bit (R218). -/
def execDivri16 (s : State) : Result := binary .w16 .w16 .w16 (fun a b => quotI s.cfg.divOverflow b a) s

/-- divri32: divide, signed, order reversed (b / a), 32-bit (R219). -/
def execDivri32 (s : State) : Result := binary .w32 .w32 .w32 (fun a b => quotI s.cfg.divOverflow b a) s

/-- divri64: divide, signed, order reversed (b / a), 64-bit (R220). -/
def execDivri64 (s : State) : Result := binary .w64 .w64 .w64 (fun a b => quotI s.cfg.divOverflow b a) s

/-- modu8: remainder, unsigned (a % b), 8-bit (R221). -/
def execModu8 (s : State) : Result := binary .w8 .w8 .w8 (fun a b => remU a b) s

/-- modu16: remainder, unsigned (a % b), 16-bit (R222). -/
def execModu16 (s : State) : Result := binary .w16 .w16 .w16 (fun a b => remU a b) s

/-- modu32: remainder, unsigned (a % b), 32-bit (R223). -/
def execModu32 (s : State) : Result := binary .w32 .w32 .w32 (fun a b => remU a b) s

/-- modu64: remainder, unsigned (a % b), 64-bit (R224). -/
def execModu64 (s : State) : Result := binary .w64 .w64 .w64 (fun a b => remU a b) s

/-- modru8: remainder, unsigned, order reversed (b % a), 8-bit (R225). -/
def execModru8 (s : State) : Result := binary .w8 .w8 .w8 (fun a b => remU b a) s

/-- modru16: remainder, unsigned, order reversed (b % a), 16-bit (R226). -/
def execModru16 (s : State) : Result := binary .w16 .w16 .w16 (fun a b => remU b a) s

/-- modru32: remainder, unsigned, order reversed (b % a), 32-bit (R227). -/
def execModru32 (s : State) : Result := binary .w32 .w32 .w32 (fun a b => remU b a) s

/-- modru64: remainder, unsigned, order reversed (b % a), 64-bit (R228). -/
def execModru64 (s : State) : Result := binary .w64 .w64 .w64 (fun a b => remU b a) s

/-- modi8: remainder, signed (a % b), 8-bit (R229). -/
def execModi8 (s : State) : Result := binary .w8 .w8 .w8 (fun a b => remI s.cfg.divOverflow a b) s

/-- modi16: remainder, signed (a % b), 16-bit (R230). -/
def execModi16 (s : State) : Result := binary .w16 .w16 .w16 (fun a b => remI s.cfg.divOverflow a b) s

/-- modi32: remainder, signed (a % b), 32-bit (R231). -/
def execModi32 (s : State) : Result := binary .w32 .w32 .w32 (fun a b => remI s.cfg.divOverflow a b) s

/-- modi64: remainder, signed (a % b), 64-bit (R232). -/
def execModi64 (s : State) : Result := binary .w64 .w64 .w64 (fun a b => remI s.cfg.divOverflow a b) s

/-- modri8: remainder, signed, order reversed (b % a), 8-bit (R233). -/
def execModri8 (s : State) : Result := binary .w8 .w8 .w8 (fun a b => remI s.cfg.divOverflow b a) s

/-- modri16: remainder, signed, order reversed (b % a), 16-bit (R234). -/
def execModri16 (s : State) : Result := binary .w16 .w16 .w16 (fun a b => remI s.cfg.divOverflow b a) s

/-- modri32: remainder, signed, order reversed (b % a), 32-bit (R235). -/
def execModri32 (s : State) : Result := binary .w32 .w32 .w32 (fun a b => remI s.cfg.divOverflow b a) s

/-- modri64: remainder, signed, order reversed (b % a), 64-bit (R236). -/
def execModri64 (s : State) : Result := binary .w64 .w64 .w64 (fun a b => remI s.cfg.divOverflow b a) s

end Sys2Proof.Machine
end

