-- ==== Sys2Proof/Machine/Flags.lean ====
section
/-! DEFINITION. The machine has no flags and no condition codes (spec 10_state.md R33). What takes their place are the
conditions that Boolean and comparison instructions compute into a stack element (44_boolean_comparison.md R290, R291). -/

namespace Sys2Proof.Machine

/-- An element is true when any of its bits is set (R291). -/
def truth {n : Nat} (a : BitVec n) : Bool := decide (a ≠ 0)

/-- The left and right sides of an ordered comparison: as unsigned integers or as signed ones (R291). -/
inductive Signedness where
  | unsigned
  | signed
deriving DecidableEq, Repr

/-- The integer an element stands for (00_scope.md R7). -/
def intVal (sg : Signedness) {n : Nat} (a : BitVec n) : Int :=
  match sg with
  | .unsigned => a.toNat
  | .signed => a.toInt

/-- a == b. -/
def condEq {n : Nat} (a b : BitVec n) : Bool := decide (a.toNat = b.toNat)

/-- a != b. -/
def condNe {n : Nat} (a b : BitVec n) : Bool := decide (a.toNat ≠ b.toNat)

/-- a > b. -/
def condGt (sg : Signedness) {n : Nat} (a b : BitVec n) : Bool := decide (intVal sg a > intVal sg b)

/-- a < b. -/
def condLt (sg : Signedness) {n : Nat} (a b : BitVec n) : Bool := decide (intVal sg a < intVal sg b)

/-- a >= b. -/
def condGe (sg : Signedness) {n : Nat} (a b : BitVec n) : Bool := decide (intVal sg a ≥ intVal sg b)

/-- a <= b. -/
def condLe (sg : Signedness) {n : Nat} (a b : BitVec n) : Bool := decide (intVal sg a ≤ intVal sg b)

/-- The width BOOLW(N) of a Boolean result (R290). -/
def boolWidth (s : State) (w : Width) : Width :=
  match s.cfg.boolw with
  | .operand => w
  | .byte => .w8

/-- A Boolean value as an element: 1 when the condition holds, 0 when it does not (R290). -/
def boolElem (w : Width) (c : Bool) : Elem w := BitVec.ofNat w.bits (if c then 1 else 0)

/-- A binary instruction with a Boolean result. -/
def binaryBool (w : Width) (cond : Elem w → Elem w → Bool) (s : State) : Result :=
  binaryPure w w (boolWidth s w) (fun a b => boolElem (boolWidth s w) (cond a b)) s

/-- A unary instruction with a Boolean result. -/
def unaryBool (w : Width) (cond : Elem w → Bool) (s : State) : Result :=
  unary w (boolWidth s w) (fun a => boolElem (boolWidth s w) (cond a)) s

end Sys2Proof.Machine
end

