-- ==== Sys2Proof/Machine/Boolean.lean ====
section
/-! DEFINITION. Boolean logical and comparison operations (spec 44_boolean_comparison.md R290 to R343). -/

namespace Sys2Proof.Machine

/-- land8: Boolean AND of two 8-bit elements (R292). -/
def execLand8 (s : State) : Result := binaryBool .w8 (fun a b => truth a && truth b) s

/-- land16: Boolean AND of two 16-bit elements (R293). -/
def execLand16 (s : State) : Result := binaryBool .w16 (fun a b => truth a && truth b) s

/-- land32: Boolean AND of two 32-bit elements (R294). -/
def execLand32 (s : State) : Result := binaryBool .w32 (fun a b => truth a && truth b) s

/-- land64: Boolean AND of two 64-bit elements (R295). -/
def execLand64 (s : State) : Result := binaryBool .w64 (fun a b => truth a && truth b) s

/-- lor8: Boolean OR of two 8-bit elements (R296). -/
def execLor8 (s : State) : Result := binaryBool .w8 (fun a b => truth a || truth b) s

/-- lor16: Boolean OR of two 16-bit elements (R297). -/
def execLor16 (s : State) : Result := binaryBool .w16 (fun a b => truth a || truth b) s

/-- lor32: Boolean OR of two 32-bit elements (R298). -/
def execLor32 (s : State) : Result := binaryBool .w32 (fun a b => truth a || truth b) s

/-- lor64: Boolean OR of two 64-bit elements (R299). -/
def execLor64 (s : State) : Result := binaryBool .w64 (fun a b => truth a || truth b) s

/-- linv8: Boolean NOT of an 8-bit element (R300). -/
def execLinv8 (s : State) : Result := unaryBool .w8 (fun a => !truth a) s

/-- linv16: Boolean NOT of a 16-bit element (R301). -/
def execLinv16 (s : State) : Result := unaryBool .w16 (fun a => !truth a) s

/-- linv32: Boolean NOT of a 32-bit element (R302). -/
def execLinv32 (s : State) : Result := unaryBool .w32 (fun a => !truth a) s

/-- linv64: Boolean NOT of a 64-bit element (R303). -/
def execLinv64 (s : State) : Result := unaryBool .w64 (fun a => !truth a) s

/-- ceq8: compare a == b, 8-bit (R304). -/
def execCeq8 (s : State) : Result := binaryBool .w8 condEq s

/-- ceq16: compare a == b, 16-bit (R305). -/
def execCeq16 (s : State) : Result := binaryBool .w16 condEq s

/-- ceq32: compare a == b, 32-bit (R306). -/
def execCeq32 (s : State) : Result := binaryBool .w32 condEq s

/-- ceq64: compare a == b, 64-bit (R307). -/
def execCeq64 (s : State) : Result := binaryBool .w64 condEq s

/-- cne8: compare a != b, 8-bit (R308). -/
def execCne8 (s : State) : Result := binaryBool .w8 condNe s

/-- cne16: compare a != b, 16-bit (R309). -/
def execCne16 (s : State) : Result := binaryBool .w16 condNe s

/-- cne32: compare a != b, 32-bit (R310). -/
def execCne32 (s : State) : Result := binaryBool .w32 condNe s

/-- cne64: compare a != b, 64-bit (R311). -/
def execCne64 (s : State) : Result := binaryBool .w64 condNe s

/-- cgtu8: compare a > b, 8-bit, unsigned (R312). -/
def execCgtu8 (s : State) : Result := binaryBool .w8 (condGt .unsigned) s

/-- cgtu16: compare a > b, 16-bit, unsigned (R313). -/
def execCgtu16 (s : State) : Result := binaryBool .w16 (condGt .unsigned) s

/-- cgtu32: compare a > b, 32-bit, unsigned (R314). -/
def execCgtu32 (s : State) : Result := binaryBool .w32 (condGt .unsigned) s

/-- cgtu64: compare a > b, 64-bit, unsigned (R315). -/
def execCgtu64 (s : State) : Result := binaryBool .w64 (condGt .unsigned) s

/-- cgti8: compare a > b, 8-bit, signed (R316). -/
def execCgti8 (s : State) : Result := binaryBool .w8 (condGt .signed) s

/-- cgti16: compare a > b, 16-bit, signed (R317). -/
def execCgti16 (s : State) : Result := binaryBool .w16 (condGt .signed) s

/-- cgti32: compare a > b, 32-bit, signed (R318). -/
def execCgti32 (s : State) : Result := binaryBool .w32 (condGt .signed) s

/-- cgti64: compare a > b, 64-bit, signed (R319). -/
def execCgti64 (s : State) : Result := binaryBool .w64 (condGt .signed) s

/-- cltu8: compare a < b, 8-bit, unsigned (R320). -/
def execCltu8 (s : State) : Result := binaryBool .w8 (condLt .unsigned) s

/-- cltu16: compare a < b, 16-bit, unsigned (R321). -/
def execCltu16 (s : State) : Result := binaryBool .w16 (condLt .unsigned) s

/-- cltu32: compare a < b, 32-bit, unsigned (R322). -/
def execCltu32 (s : State) : Result := binaryBool .w32 (condLt .unsigned) s

/-- cltu64: compare a < b, 64-bit, unsigned (R323). -/
def execCltu64 (s : State) : Result := binaryBool .w64 (condLt .unsigned) s

/-- clti8: compare a < b, 8-bit, signed (R324). -/
def execClti8 (s : State) : Result := binaryBool .w8 (condLt .signed) s

/-- clti16: compare a < b, 16-bit, signed (R325). -/
def execClti16 (s : State) : Result := binaryBool .w16 (condLt .signed) s

/-- clti32: compare a < b, 32-bit, signed (R326). -/
def execClti32 (s : State) : Result := binaryBool .w32 (condLt .signed) s

/-- clti64: compare a < b, 64-bit, signed (R327). -/
def execClti64 (s : State) : Result := binaryBool .w64 (condLt .signed) s

/-- cgteu8: compare a >= b, 8-bit, unsigned (R328). -/
def execCgteu8 (s : State) : Result := binaryBool .w8 (condGe .unsigned) s

/-- cgteu16: compare a >= b, 16-bit, unsigned (R329). -/
def execCgteu16 (s : State) : Result := binaryBool .w16 (condGe .unsigned) s

/-- cgteu32: compare a >= b, 32-bit, unsigned (R330). -/
def execCgteu32 (s : State) : Result := binaryBool .w32 (condGe .unsigned) s

/-- cgteu64: compare a >= b, 64-bit, unsigned (R331). -/
def execCgteu64 (s : State) : Result := binaryBool .w64 (condGe .unsigned) s

/-- cgtei8: compare a >= b, 8-bit, signed (R332). -/
def execCgtei8 (s : State) : Result := binaryBool .w8 (condGe .signed) s

/-- cgtei16: compare a >= b, 16-bit, signed (R333). -/
def execCgtei16 (s : State) : Result := binaryBool .w16 (condGe .signed) s

/-- cgtei32: compare a >= b, 32-bit, signed (R334). -/
def execCgtei32 (s : State) : Result := binaryBool .w32 (condGe .signed) s

/-- cgtei64: compare a >= b, 64-bit, signed (R335). -/
def execCgtei64 (s : State) : Result := binaryBool .w64 (condGe .signed) s

/-- clteu8: compare a <= b, 8-bit, unsigned (R336). -/
def execClteu8 (s : State) : Result := binaryBool .w8 (condLe .unsigned) s

/-- clteu16: compare a <= b, 16-bit, unsigned (R337). -/
def execClteu16 (s : State) : Result := binaryBool .w16 (condLe .unsigned) s

/-- clteu32: compare a <= b, 32-bit, unsigned (R338). -/
def execClteu32 (s : State) : Result := binaryBool .w32 (condLe .unsigned) s

/-- clteu64: compare a <= b, 64-bit, unsigned (R339). -/
def execClteu64 (s : State) : Result := binaryBool .w64 (condLe .unsigned) s

/-- cltei8: compare a <= b, 8-bit, signed (R340). -/
def execCltei8 (s : State) : Result := binaryBool .w8 (condLe .signed) s

/-- cltei16: compare a <= b, 16-bit, signed (R341). -/
def execCltei16 (s : State) : Result := binaryBool .w16 (condLe .signed) s

/-- cltei32: compare a <= b, 32-bit, signed (R342). -/
def execCltei32 (s : State) : Result := binaryBool .w32 (condLe .signed) s

/-- cltei64: compare a <= b, 64-bit, signed (R343). -/
def execCltei64 (s : State) : Result := binaryBool .w64 (condLe .signed) s

end Sys2Proof.Machine
end

