-- ==== Sys2Proof/Machine/CallReturn.lean ====
section
/-! DEFINITION. Function call and return (spec 45_call_return.md R350 to R357). -/

namespace Sys2Proof.Machine

/-- call: call the function at the 64-bit immediate address (R351). -/
def execCall (imm : BitVec 64) (s : State) : Result :=
  finish s do
    stackCheck s 0 16
    let m₁ ← memWrite s s.mem (down s.sp 8) .w64 s.sfp
    let m₂ ← memWrite s m₁ (down s.sp 16) .w64 (up s.pc 9)
    return s.enterFrame m₂ (down s.sp 16) imm

/-- calls: call the function whose address is on the stack (R352). -/
def execCalls (s : State) : Result :=
  finish s do
    stackCheck s 8 16
    let a ← memRead s s.sp .w64
    let m₁ ← memWrite s s.mem s.sp .w64 s.sfp
    let m₂ ← memWrite s m₁ (down s.sp 8) .w64 (up s.pc 1)
    return s.enterFrame m₂ (down s.sp 8) a

/-- ret: return from the current function (R353). -/
def execRet (s : State) : Result :=
  finish s do
    let reta ← rawRead s s.sfp .w64
    let psfp ← rawRead s (up s.sfp 8) .w64
    frameStackCheck s
    return s.leaveFrame (up s.sfp 16) psfp reta

end Sys2Proof.Machine
end

