-- ==== Sys2Proof/Machine/JumpBranch.lean ====
section
/-! DEFINITION. Jump and branching instructions (spec 46_jump_branch.md R370 to R392). -/

namespace Sys2Proof.Machine

/-- jmp: jump to the 64-bit immediate address (R371). -/
def execJmp (imm : BitVec 64) (s : State) : Result := .next (s.setPc imm)

/-- jmps: jump to the address on the stack (R372). -/
def execJmps (s : State) : Result :=
  finish s do
    stackCheck s 8 0
    let a ← memRead s s.sp .w64
    return s.put s.mem (up s.sp 8) a

/-- rjmpi8: jump relative to this instruction by a signed 8-bit immediate (R373). -/
def execRjmpi8 (imm : BitVec 8) (s : State) : Result := .next (s.setPc (relTarget s imm))

/-- rjmpi16: jump relative to this instruction by a signed 16-bit immediate (R374). -/
def execRjmpi16 (imm : BitVec 16) (s : State) : Result := .next (s.setPc (relTarget s imm))

/-- rjmpi32: jump relative to this instruction by a signed 32-bit immediate (R375). -/
def execRjmpi32 (imm : BitVec 32) (s : State) : Result := .next (s.setPc (relTarget s imm))

/-- brz8: pop an 8-bit element and jump to the 64-bit immediate address if it is zero (R376). -/
def execBrz8 (imm : BitVec 64) (s : State) : Result := branchZero .w8 imm 9 s

/-- brz16: pop a 16-bit element and jump to the 64-bit immediate address if it is zero (R377). -/
def execBrz16 (imm : BitVec 64) (s : State) : Result := branchZero .w16 imm 9 s

/-- brz32: pop a 32-bit element and jump to the 64-bit immediate address if it is zero (R378). -/
def execBrz32 (imm : BitVec 64) (s : State) : Result := branchZero .w32 imm 9 s

/-- brz64: pop a 64-bit element and jump to the 64-bit immediate address if it is zero (R379). -/
def execBrz64 (imm : BitVec 64) (s : State) : Result := branchZero .w64 imm 9 s

/-- rbrz8i8: pop an 8-bit element and jump relative by a signed 8-bit immediate if it is zero (R380). -/
def execRbrz8i8 (imm : BitVec 8) (s : State) : Result := branchZero .w8 (relTarget s imm) 2 s

/-- rbrz8i16: pop an 8-bit element and jump relative by a signed 16-bit immediate if it is zero (R381). -/
def execRbrz8i16 (imm : BitVec 16) (s : State) : Result := branchZero .w8 (relTarget s imm) 3 s

/-- rbrz8i32: pop an 8-bit element and jump relative by a signed 32-bit immediate if it is zero (R382). -/
def execRbrz8i32 (imm : BitVec 32) (s : State) : Result := branchZero .w8 (relTarget s imm) 5 s

/-- rbrz16i8: pop a 16-bit element and jump relative by a signed 8-bit immediate if it is zero (R383). -/
def execRbrz16i8 (imm : BitVec 8) (s : State) : Result := branchZero .w16 (relTarget s imm) 2 s

/-- rbrz16i16: pop a 16-bit element and jump relative by a signed 16-bit immediate if it is zero (R384). -/
def execRbrz16i16 (imm : BitVec 16) (s : State) : Result := branchZero .w16 (relTarget s imm) 3 s

/-- rbrz16i32: pop a 16-bit element and jump relative by a signed 32-bit immediate if it is zero (R385). -/
def execRbrz16i32 (imm : BitVec 32) (s : State) : Result := branchZero .w16 (relTarget s imm) 5 s

/-- rbrz32i8: pop a 32-bit element and jump relative by a signed 8-bit immediate if it is zero (R386). -/
def execRbrz32i8 (imm : BitVec 8) (s : State) : Result := branchZero .w32 (relTarget s imm) 2 s

/-- rbrz32i16: pop a 32-bit element and jump relative by a signed 16-bit immediate if it is zero (R387). -/
def execRbrz32i16 (imm : BitVec 16) (s : State) : Result := branchZero .w32 (relTarget s imm) 3 s

/-- rbrz32i32: pop a 32-bit element and jump relative by a signed 32-bit immediate if it is zero (R388). -/
def execRbrz32i32 (imm : BitVec 32) (s : State) : Result := branchZero .w32 (relTarget s imm) 5 s

/-- rbrz64i8: pop a 64-bit element and jump relative by a signed 8-bit immediate if it is zero (R389). -/
def execRbrz64i8 (imm : BitVec 8) (s : State) : Result := branchZero .w64 (relTarget s imm) 2 s

/-- rbrz64i16: pop a 64-bit element and jump relative by a signed 16-bit immediate if it is zero (R390). -/
def execRbrz64i16 (imm : BitVec 16) (s : State) : Result := branchZero .w64 (relTarget s imm) 3 s

/-- rbrz64i32: pop a 64-bit element and jump relative by a signed 32-bit immediate if it is zero (R391). -/
def execRbrz64i32 (imm : BitVec 32) (s : State) : Result := branchZero .w64 (relTarget s imm) 5 s

end Sys2Proof.Machine
end

