-- ==== Sys2Proof/Machine/LoadStore.lean ====
section
/-! DEFINITION. Memory operations (spec 47_memory_ops.md R400 to R449). -/

namespace Sys2Proof.Machine

/-- load8: load an 8-bit value, keeping the address, absolute 64-bit address (R402). -/
def execLoad8 (s : State) : Result := loadKeep .w8 .absolute s

/-- load16: load a 16-bit value, keeping the address, absolute 64-bit address (R403). -/
def execLoad16 (s : State) : Result := loadKeep .w16 .absolute s

/-- load32: load a 32-bit value, keeping the address, absolute 64-bit address (R404). -/
def execLoad32 (s : State) : Result := loadKeep .w32 .absolute s

/-- load64: load a 64-bit value, keeping the address, absolute 64-bit address (R405). -/
def execLoad64 (s : State) : Result := loadKeep .w64 .absolute s

/-- loadpop8: load an 8-bit value, replacing the address, absolute 64-bit address (R406). -/
def execLoadpop8 (s : State) : Result := loadPop .w8 .absolute s

/-- loadpop16: load a 16-bit value, replacing the address, absolute 64-bit address (R407). -/
def execLoadpop16 (s : State) : Result := loadPop .w16 .absolute s

/-- loadpop32: load a 32-bit value, replacing the address, absolute 64-bit address (R408). -/
def execLoadpop32 (s : State) : Result := loadPop .w32 .absolute s

/-- loadpop64: load a 64-bit value, replacing the address, absolute 64-bit address (R409). -/
def execLoadpop64 (s : State) : Result := loadPop .w64 .absolute s

/-- loadsfp8: load an 8-bit value, keeping the address, address = SFP + signed 64-bit offset (R410). -/
def execLoadsfp8 (s : State) : Result := loadKeep .w8 .sfp s

/-- loadsfp16: load a 16-bit value, keeping the address, address = SFP + signed 64-bit offset (R411). -/
def execLoadsfp16 (s : State) : Result := loadKeep .w16 .sfp s

/-- loadsfp32: load a 32-bit value, keeping the address, address = SFP + signed 64-bit offset (R412). -/
def execLoadsfp32 (s : State) : Result := loadKeep .w32 .sfp s

/-- loadsfp64: load a 64-bit value, keeping the address, address = SFP + signed 64-bit offset (R413). -/
def execLoadsfp64 (s : State) : Result := loadKeep .w64 .sfp s

/-- loadpopsfp8: load an 8-bit value, replacing the address, address = SFP + signed 64-bit offset (R414). -/
def execLoadpopsfp8 (s : State) : Result := loadPop .w8 .sfp s

/-- loadpopsfp16: load a 16-bit value, replacing the address, address = SFP + signed 64-bit offset (R415). -/
def execLoadpopsfp16 (s : State) : Result := loadPop .w16 .sfp s

/-- loadpopsfp32: load a 32-bit value, replacing the address, address = SFP + signed 64-bit offset (R416). -/
def execLoadpopsfp32 (s : State) : Result := loadPop .w32 .sfp s

/-- loadpopsfp64: load a 64-bit value, replacing the address, address = SFP + signed 64-bit offset (R417). -/
def execLoadpopsfp64 (s : State) : Result := loadPop .w64 .sfp s

/-- store8: store an 8-bit value (value on top, address beneath), keeping both, absolute 64-bit address (R418). -/
def execStore8 (s : State) : Result := storeTop .w8 .absolute 0 s

/-- store16: store a 16-bit value (value on top, address beneath), keeping both, absolute 64-bit address (R419). -/
def execStore16 (s : State) : Result := storeTop .w16 .absolute 0 s

/-- store32: store a 32-bit value (value on top, address beneath), keeping both, absolute 64-bit address (R420). -/
def execStore32 (s : State) : Result := storeTop .w32 .absolute 0 s

/-- store64: store a 64-bit value (value on top, address beneath), keeping both, absolute 64-bit address (R421). -/
def execStore64 (s : State) : Result := storeTop .w64 .absolute 0 s

/-- storepop8: store an 8-bit value (value on top, address beneath), popping the value, absolute 64-bit address
(R422). -/
def execStorepop8 (s : State) : Result := storeTop .w8 .absolute 1 s

/-- storepop16: store a 16-bit value (value on top, address beneath), popping the value, absolute 64-bit address
(R423). -/
def execStorepop16 (s : State) : Result := storeTop .w16 .absolute 2 s

/-- storepop32: store a 32-bit value (value on top, address beneath), popping the value, absolute 64-bit address
(R424). -/
def execStorepop32 (s : State) : Result := storeTop .w32 .absolute 4 s

/-- storepop64: store a 64-bit value (value on top, address beneath), popping the value, absolute 64-bit address
(R425). -/
def execStorepop64 (s : State) : Result := storeTop .w64 .absolute 8 s

/-- storesfp8: store an 8-bit value (value on top, address beneath), keeping both, address = SFP + signed 64-bit
offset (R426). -/
def execStoresfp8 (s : State) : Result := storeTop .w8 .sfp 0 s

/-- storesfp16: store a 16-bit value (value on top, address beneath), keeping both, address = SFP + signed 64-bit
offset (R427). -/
def execStoresfp16 (s : State) : Result := storeTop .w16 .sfp 0 s

/-- storesfp32: store a 32-bit value (value on top, address beneath), keeping both, address = SFP + signed 64-bit
offset (R428). -/
def execStoresfp32 (s : State) : Result := storeTop .w32 .sfp 0 s

/-- storesfp64: store a 64-bit value (value on top, address beneath), keeping both, address = SFP + signed 64-bit
offset (R429). -/
def execStoresfp64 (s : State) : Result := storeTop .w64 .sfp 0 s

/-- storepopsfp8: store an 8-bit value (value on top, address beneath), popping the value, address = SFP + signed
64-bit offset (R430). -/
def execStorepopsfp8 (s : State) : Result := storeTop .w8 .sfp 1 s

/-- storepopsfp16: store a 16-bit value (value on top, address beneath), popping the value, address = SFP + signed
64-bit offset (R431). -/
def execStorepopsfp16 (s : State) : Result := storeTop .w16 .sfp 2 s

/-- storepopsfp32: store a 32-bit value (value on top, address beneath), popping the value, address = SFP + signed
64-bit offset (R432). -/
def execStorepopsfp32 (s : State) : Result := storeTop .w32 .sfp 4 s

/-- storepopsfp64: store a 64-bit value (value on top, address beneath), popping the value, address = SFP + signed
64-bit offset (R433). -/
def execStorepopsfp64 (s : State) : Result := storeTop .w64 .sfp 8 s

/-- storer8: store an 8-bit value (address on top, value beneath), keeping both, absolute 64-bit address (R434). -/
def execStorer8 (s : State) : Result := storeBeneath .w8 .absolute 0 s

/-- storer16: store a 16-bit value (address on top, value beneath), keeping both, absolute 64-bit address (R435). -/
def execStorer16 (s : State) : Result := storeBeneath .w16 .absolute 0 s

/-- storer32: store a 32-bit value (address on top, value beneath), keeping both, absolute 64-bit address (R436). -/
def execStorer32 (s : State) : Result := storeBeneath .w32 .absolute 0 s

/-- storer64: store a 64-bit value (address on top, value beneath), keeping both, absolute 64-bit address (R437). -/
def execStorer64 (s : State) : Result := storeBeneath .w64 .absolute 0 s

/-- storerpop8: store an 8-bit value (address on top, value beneath), popping the address, absolute 64-bit address
(R438). -/
def execStorerpop8 (s : State) : Result := storeBeneath .w8 .absolute 8 s

/-- storerpop16: store a 16-bit value (address on top, value beneath), popping the address, absolute 64-bit address
(R439). -/
def execStorerpop16 (s : State) : Result := storeBeneath .w16 .absolute 8 s

/-- storerpop32: store a 32-bit value (address on top, value beneath), popping the address, absolute 64-bit address
(R440). -/
def execStorerpop32 (s : State) : Result := storeBeneath .w32 .absolute 8 s

/-- storerpop64: store a 64-bit value (address on top, value beneath), popping the address, absolute 64-bit address
(R441). -/
def execStorerpop64 (s : State) : Result := storeBeneath .w64 .absolute 8 s

/-- storersfp8: store an 8-bit value (address on top, value beneath), keeping both, address = SFP + signed 64-bit
offset (R442). -/
def execStorersfp8 (s : State) : Result := storeBeneath .w8 .sfp 0 s

/-- storersfp16: store a 16-bit value (address on top, value beneath), keeping both, address = SFP + signed 64-bit
offset (R443). -/
def execStorersfp16 (s : State) : Result := storeBeneath .w16 .sfp 0 s

/-- storersfp32: store a 32-bit value (address on top, value beneath), keeping both, address = SFP + signed 64-bit
offset (R444). -/
def execStorersfp32 (s : State) : Result := storeBeneath .w32 .sfp 0 s

/-- storersfp64: store a 64-bit value (address on top, value beneath), keeping both, address = SFP + signed 64-bit
offset (R445). -/
def execStorersfp64 (s : State) : Result := storeBeneath .w64 .sfp 0 s

/-- storerpopsfp8: store an 8-bit value (address on top, value beneath), popping the address, address = SFP + signed
64-bit offset (R446). -/
def execStorerpopsfp8 (s : State) : Result := storeBeneath .w8 .sfp 8 s

/-- storerpopsfp16: store a 16-bit value (address on top, value beneath), popping the address, address = SFP + signed
64-bit offset (R447). -/
def execStorerpopsfp16 (s : State) : Result := storeBeneath .w16 .sfp 8 s

/-- storerpopsfp32: store a 32-bit value (address on top, value beneath), popping the address, address = SFP + signed
64-bit offset (R448). -/
def execStorerpopsfp32 (s : State) : Result := storeBeneath .w32 .sfp 8 s

/-- storerpopsfp64: store a 64-bit value (address on top, value beneath), popping the address, address = SFP + signed
64-bit offset (R449). -/
def execStorerpopsfp64 (s : State) : Result := storeBeneath .w64 .sfp 8 s

end Sys2Proof.Machine
end

