-- ==== Sys2Proof/Machine/Misc.lean ====
section
/-! DEFINITION. Miscellaneous operations (spec 48_misc.md R460 to R467). -/

namespace Sys2Proof.Machine

/-- setsbp: set SBP to the 64-bit immediate (R460). -/
def execSetsbp (imm : BitVec 64) (s : State) : Result := .next (s.setSbp imm (up s.pc 9))

/-- setsfp: set SFP to the 64-bit immediate (R461). -/
def execSetsfp (imm : BitVec 64) (s : State) : Result := .next (s.setSfp imm (up s.pc 9))

/-- setsp: set SP to the 64-bit immediate (R462). -/
def execSetsp (imm : BitVec 64) (s : State) : Result := .next (s.setSp imm (up s.pc 9))

/-- setslp: set SLP to the 64-bit immediate (R463). -/
def execSetslp (imm : BitVec 64) (s : State) : Result := .next (s.setSlp imm (up s.pc 9))

/-- nop: no operation (R464). -/
def execNop (s : State) : Result := .next (s.setPc (up s.pc 1))

/-- ext: prefix introducing an extended op code (none defined) (R465). -/
def execExt (s : State) : Result := .next (s.raise .invalidInstruction)

/-- halt: halt the processor (R466). -/
def execHalt (s : State) : Result := .next s.halt

/-- invalid: intentionally invalid instruction (R467). -/
def execInvalid (s : State) : Result := .next (s.raise .invalidInstruction)

end Sys2Proof.Machine
end

