-- ==== Sys2Proof/Machine/Promotion.lean ====
section
/-! DEFINITION. Promotion and demotion operations (spec 41_promotion_demotion.md R160 to R175). -/

namespace Sys2Proof.Machine

/-- prom8u16: promote the 8-bit top element to 16 bits, unsigned (zero extension) (R161). -/
def execProm8u16 (s : State) : Result := unary .w8 .w16 (zext .w16) s

/-- prom8u32: promote the 8-bit top element to 32 bits, unsigned (zero extension) (R162). -/
def execProm8u32 (s : State) : Result := unary .w8 .w32 (zext .w32) s

/-- prom8u64: promote the 8-bit top element to 64 bits, unsigned (zero extension) (R163). -/
def execProm8u64 (s : State) : Result := unary .w8 .w64 (zext .w64) s

/-- prom8i16: promote the 8-bit top element to 16 bits, signed (sign extension) (R164). -/
def execProm8i16 (s : State) : Result := unary .w8 .w16 (sext .w16) s

/-- prom8i32: promote the 8-bit top element to 32 bits, signed (sign extension) (R165). -/
def execProm8i32 (s : State) : Result := unary .w8 .w32 (sext .w32) s

/-- prom8i64: promote the 8-bit top element to 64 bits, signed (sign extension) (R166). -/
def execProm8i64 (s : State) : Result := unary .w8 .w64 (sext .w64) s

/-- prom16u32: promote the 16-bit top element to 32 bits, unsigned (zero extension) (R167). -/
def execProm16u32 (s : State) : Result := unary .w16 .w32 (zext .w32) s

/-- prom16u64: promote the 16-bit top element to 64 bits, unsigned (zero extension) (R168). -/
def execProm16u64 (s : State) : Result := unary .w16 .w64 (zext .w64) s

/-- prom16i32: promote the 16-bit top element to 32 bits, signed (sign extension) (R169). -/
def execProm16i32 (s : State) : Result := unary .w16 .w32 (sext .w32) s

/-- prom16i64: promote the 16-bit top element to 64 bits, signed (sign extension) (R170). -/
def execProm16i64 (s : State) : Result := unary .w16 .w64 (sext .w64) s

/-- prom32u64: promote the 32-bit top element to 64 bits, unsigned (zero extension) (R171). -/
def execProm32u64 (s : State) : Result := unary .w32 .w64 (zext .w64) s

/-- prom32i64: promote the 32-bit top element to 64 bits, signed (sign extension) (R172). -/
def execProm32i64 (s : State) : Result := unary .w32 .w64 (sext .w64) s

/-- dem64to16: demote the 64-bit top element to 16 bits by truncation (R173). -/
def execDem64to16 (s : State) : Result := unary .w64 .w16 (trunc .w16) s

/-- dem64to8: demote the 64-bit top element to 8 bits by truncation (R174). -/
def execDem64to8 (s : State) : Result := unary .w64 .w8 (trunc .w8) s

/-- dem32to8: demote the 32-bit top element to 8 bits by truncation (R175). -/
def execDem32to8 (s : State) : Result := unary .w32 .w8 (trunc .w8) s

end Sys2Proof.Machine
end

