-- ==== Sys2Proof/Machine/PushPop.lean ====
section
/-! DEFINITION. Push, pop, duplication and set operations (spec 40_push_pop_dup_set.md R120 to R148). -/

namespace Sys2Proof.Machine

/-- push8: push an 8-bit immediate (R121). -/
def execPush8 (imm : BitVec 8) (s : State) : Result := pushElem .w8 imm 2 s

/-- push8asu16: push an 8-bit immediate, zero-extended to 16 bits (R122). -/
def execPush8asu16 (imm : BitVec 8) (s : State) : Result := pushElem .w16 (zext .w16 imm) 2 s

/-- push8asu32: push an 8-bit immediate, zero-extended to 32 bits (R123). -/
def execPush8asu32 (imm : BitVec 8) (s : State) : Result := pushElem .w32 (zext .w32 imm) 2 s

/-- push8asu64: push an 8-bit immediate, zero-extended to 64 bits (R124). -/
def execPush8asu64 (imm : BitVec 8) (s : State) : Result := pushElem .w64 (zext .w64 imm) 2 s

/-- push8asi16: push an 8-bit immediate, sign-extended to 16 bits (R125). -/
def execPush8asi16 (imm : BitVec 8) (s : State) : Result := pushElem .w16 (sext .w16 imm) 2 s

/-- push8asi32: push an 8-bit immediate, sign-extended to 32 bits (R126). -/
def execPush8asi32 (imm : BitVec 8) (s : State) : Result := pushElem .w32 (sext .w32 imm) 2 s

/-- push8asi64: push an 8-bit immediate, sign-extended to 64 bits (R127). -/
def execPush8asi64 (imm : BitVec 8) (s : State) : Result := pushElem .w64 (sext .w64 imm) 2 s

/-- push16: push a 16-bit immediate (R128). -/
def execPush16 (imm : BitVec 16) (s : State) : Result := pushElem .w16 imm 3 s

/-- push16asu32: push a 16-bit immediate, zero-extended to 32 bits (R129). -/
def execPush16asu32 (imm : BitVec 16) (s : State) : Result := pushElem .w32 (zext .w32 imm) 3 s

/-- push16asu64: push a 16-bit immediate, zero-extended to 64 bits (R130). -/
def execPush16asu64 (imm : BitVec 16) (s : State) : Result := pushElem .w64 (zext .w64 imm) 3 s

/-- push16asi32: push a 16-bit immediate, sign-extended to 32 bits (R131). -/
def execPush16asi32 (imm : BitVec 16) (s : State) : Result := pushElem .w32 (sext .w32 imm) 3 s

/-- push16asi64: push a 16-bit immediate, sign-extended to 64 bits (R132). -/
def execPush16asi64 (imm : BitVec 16) (s : State) : Result := pushElem .w64 (sext .w64 imm) 3 s

/-- push32: push a 32-bit immediate (R133). -/
def execPush32 (imm : BitVec 32) (s : State) : Result := pushElem .w32 imm 5 s

/-- push32asu64: push a 32-bit immediate, zero-extended to 64 bits (R134). -/
def execPush32asu64 (imm : BitVec 32) (s : State) : Result := pushElem .w64 (zext .w64 imm) 5 s

/-- push32asi64: push a 32-bit immediate, sign-extended to 64 bits (R135). -/
def execPush32asi64 (imm : BitVec 32) (s : State) : Result := pushElem .w64 (sext .w64 imm) 5 s

/-- push64: push a 64-bit immediate (R136). -/
def execPush64 (imm : BitVec 64) (s : State) : Result := pushElem .w64 imm 9 s

/-- pop8: pop an 8-bit element (R137). -/
def execPop8 (s : State) : Result := popElem .w8 s

/-- pop16: pop a 16-bit element (R138). -/
def execPop16 (s : State) : Result := popElem .w16 s

/-- pop32: pop a 32-bit element (R139). -/
def execPop32 (s : State) : Result := popElem .w32 s

/-- pop64: pop a 64-bit element (R140). -/
def execPop64 (s : State) : Result := popElem .w64 s

/-- dup8: duplicate the 8-bit top element (R141). -/
def execDup8 (s : State) : Result := dupElem .w8 s

/-- dup16: duplicate the 16-bit top element (R142). -/
def execDup16 (s : State) : Result := dupElem .w16 s

/-- dup32: duplicate the 32-bit top element (R143). -/
def execDup32 (s : State) : Result := dupElem .w32 s

/-- dup64: duplicate the 64-bit top element (R144). -/
def execDup64 (s : State) : Result := dupElem .w64 s

/-- set8: copy the 8-bit top element over the element beneath it and pop (R145). -/
def execSet8 (s : State) : Result := setElem .w8 s

/-- set16: copy the 16-bit top element over the element beneath it and pop (R146). -/
def execSet16 (s : State) : Result := setElem .w16 s

/-- set32: copy the 32-bit top element over the element beneath it and pop (R147). -/
def execSet32 (s : State) : Result := setElem .w32 s

/-- set64: copy the 64-bit top element over the element beneath it and pop (R148). -/
def execSet64 (s : State) : Result := setElem .w64 s

end Sys2Proof.Machine
end

