-- ==== Sys2Proof/Machine/ShiftBitwise.lean ====
section
/-! DEFINITION. Bitwise shift and bitwise logical operations (spec 43_shift_bitwise.md R250 to R281). -/

namespace Sys2Proof.Machine

/-- The result of shifting a by the count of the top element, an unsigned byte (R250): the rules for counts below the
width (R252, R253), else the value of NUM.shift_over (R251). -/
def shiftElem (op : ShiftOp) {n : Nat} (a : BitVec n) (count : Byte) : BitVec n :=
  let c := count.toNat
  if c < n then
    match op with
    | .lshift => BitVec.ofNat n (a.toNat * 2 ^ c)
    | .rshiftu => BitVec.ofNat n (a.toNat / 2 ^ c)
    | .rshifti => BitVec.ofInt n (a.toInt.fdiv (2 ^ c))
  else Config.shiftOver op n a c

/-- lshift8: shift left, 8-bit value by an 8-bit count (R254). -/
def execLshift8 (s : State) : Result := binaryPure .w8 .w8 .w8 (shiftElem .lshift) s

/-- lshift16: shift left, 16-bit value by an 8-bit count (R255). -/
def execLshift16 (s : State) : Result := binaryPure .w16 .w8 .w16 (shiftElem .lshift) s

/-- lshift32: shift left, 32-bit value by an 8-bit count (R256). -/
def execLshift32 (s : State) : Result := binaryPure .w32 .w8 .w32 (shiftElem .lshift) s

/-- lshift64: shift left, 64-bit value by an 8-bit count (R257). -/
def execLshift64 (s : State) : Result := binaryPure .w64 .w8 .w64 (shiftElem .lshift) s

/-- rshiftu8: shift right, unsigned (logical), 8-bit value by an 8-bit count (R258). -/
def execRshiftu8 (s : State) : Result := binaryPure .w8 .w8 .w8 (shiftElem .rshiftu) s

/-- rshiftu16: shift right, unsigned (logical), 16-bit value by an 8-bit count (R259). -/
def execRshiftu16 (s : State) : Result := binaryPure .w16 .w8 .w16 (shiftElem .rshiftu) s

/-- rshiftu32: shift right, unsigned (logical), 32-bit value by an 8-bit count (R260). -/
def execRshiftu32 (s : State) : Result := binaryPure .w32 .w8 .w32 (shiftElem .rshiftu) s

/-- rshiftu64: shift right, unsigned (logical), 64-bit value by an 8-bit count (R261). -/
def execRshiftu64 (s : State) : Result := binaryPure .w64 .w8 .w64 (shiftElem .rshiftu) s

/-- rshifti8: shift right, signed (arithmetic), 8-bit value by an 8-bit count (R262). -/
def execRshifti8 (s : State) : Result := binaryPure .w8 .w8 .w8 (shiftElem .rshifti) s

/-- rshifti16: shift right, signed (arithmetic), 16-bit value by an 8-bit count (R263). -/
def execRshifti16 (s : State) : Result := binaryPure .w16 .w8 .w16 (shiftElem .rshifti) s

/-- rshifti32: shift right, signed (arithmetic), 32-bit value by an 8-bit count (R264). -/
def execRshifti32 (s : State) : Result := binaryPure .w32 .w8 .w32 (shiftElem .rshifti) s

/-- rshifti64: shift right, signed (arithmetic), 64-bit value by an 8-bit count (R265). -/
def execRshifti64 (s : State) : Result := binaryPure .w64 .w8 .w64 (shiftElem .rshifti) s

/-- band8: bitwise AND, 8-bit (R266). -/
def execBand8 (s : State) : Result := binaryPure .w8 .w8 .w8 (fun a b => a &&& b) s

/-- band16: bitwise AND, 16-bit (R267). -/
def execBand16 (s : State) : Result := binaryPure .w16 .w16 .w16 (fun a b => a &&& b) s

/-- band32: bitwise AND, 32-bit (R268). -/
def execBand32 (s : State) : Result := binaryPure .w32 .w32 .w32 (fun a b => a &&& b) s

/-- band64: bitwise AND, 64-bit (R269). -/
def execBand64 (s : State) : Result := binaryPure .w64 .w64 .w64 (fun a b => a &&& b) s

/-- bor8: bitwise OR, 8-bit (R270). -/
def execBor8 (s : State) : Result := binaryPure .w8 .w8 .w8 (fun a b => a ||| b) s

/-- bor16: bitwise OR, 16-bit (R271). -/
def execBor16 (s : State) : Result := binaryPure .w16 .w16 .w16 (fun a b => a ||| b) s

/-- bor32: bitwise OR, 32-bit (R272). -/
def execBor32 (s : State) : Result := binaryPure .w32 .w32 .w32 (fun a b => a ||| b) s

/-- bor64: bitwise OR, 64-bit (R273). -/
def execBor64 (s : State) : Result := binaryPure .w64 .w64 .w64 (fun a b => a ||| b) s

/-- bxor8: bitwise exclusive OR, 8-bit (R274). -/
def execBxor8 (s : State) : Result := binaryPure .w8 .w8 .w8 (fun a b => a ^^^ b) s

/-- bxor16: bitwise exclusive OR, 16-bit (R275). -/
def execBxor16 (s : State) : Result := binaryPure .w16 .w16 .w16 (fun a b => a ^^^ b) s

/-- bxor32: bitwise exclusive OR, 32-bit (R276). -/
def execBxor32 (s : State) : Result := binaryPure .w32 .w32 .w32 (fun a b => a ^^^ b) s

/-- bxor64: bitwise exclusive OR, 64-bit (R277). -/
def execBxor64 (s : State) : Result := binaryPure .w64 .w64 .w64 (fun a b => a ^^^ b) s

/-- binv8: bitwise complement, 8-bit (R278). -/
def execBinv8 (s : State) : Result := unary .w8 .w8 (fun a => ~~~a) s

/-- binv16: bitwise complement, 16-bit (R279). -/
def execBinv16 (s : State) : Result := unary .w16 .w16 (fun a => ~~~a) s

/-- binv32: bitwise complement, 32-bit (R280). -/
def execBinv32 (s : State) : Result := unary .w32 .w32 (fun a => ~~~a) s

/-- binv64: bitwise complement, 64-bit (R281). -/
def execBinv64 (s : State) : Result := unary .w64 .w64 (fun a => ~~~a) s

end Sys2Proof.Machine
end

