-- ==== Sys2Proof/Machine/Dispatch.lean ====
section
/-! DEFINITION. Which meaning each instruction has. -/

namespace Sys2Proof.Machine

/-- The meaning of an instruction: one direct call for each constructor. -/
def exec (i : Instr) (s : State) : Host.Outcome State Fault Refusal :=
  match i with
  -- Push operations (40_push_pop_dup_set.md R121-R136)
  | .push8 imm => Sys2Proof.Machine.execPush8 imm s
  | .push8asu16 imm => Sys2Proof.Machine.execPush8asu16 imm s
  | .push8asu32 imm => Sys2Proof.Machine.execPush8asu32 imm s
  | .push8asu64 imm => Sys2Proof.Machine.execPush8asu64 imm s
  | .push8asi16 imm => Sys2Proof.Machine.execPush8asi16 imm s
  | .push8asi32 imm => Sys2Proof.Machine.execPush8asi32 imm s
  | .push8asi64 imm => Sys2Proof.Machine.execPush8asi64 imm s
  | .push16 imm => Sys2Proof.Machine.execPush16 imm s
  | .push16asu32 imm => Sys2Proof.Machine.execPush16asu32 imm s
  | .push16asu64 imm => Sys2Proof.Machine.execPush16asu64 imm s
  | .push16asi32 imm => Sys2Proof.Machine.execPush16asi32 imm s
  | .push16asi64 imm => Sys2Proof.Machine.execPush16asi64 imm s
  | .push32 imm => Sys2Proof.Machine.execPush32 imm s
  | .push32asu64 imm => Sys2Proof.Machine.execPush32asu64 imm s
  | .push32asi64 imm => Sys2Proof.Machine.execPush32asi64 imm s
  | .push64 imm => Sys2Proof.Machine.execPush64 imm s
  -- Pop operations (40_push_pop_dup_set.md R137-R140)
  | .pop8 => Sys2Proof.Machine.execPop8 s
  | .pop16 => Sys2Proof.Machine.execPop16 s
  | .pop32 => Sys2Proof.Machine.execPop32 s
  | .pop64 => Sys2Proof.Machine.execPop64 s
  -- Duplication and set operations (40_push_pop_dup_set.md R141-R148)
  | .dup8 => Sys2Proof.Machine.execDup8 s
  | .dup16 => Sys2Proof.Machine.execDup16 s
  | .dup32 => Sys2Proof.Machine.execDup32 s
  | .dup64 => Sys2Proof.Machine.execDup64 s
  | .set8 => Sys2Proof.Machine.execSet8 s
  | .set16 => Sys2Proof.Machine.execSet16 s
  | .set32 => Sys2Proof.Machine.execSet32 s
  | .set64 => Sys2Proof.Machine.execSet64 s
  -- Promotion and demotion operations (41_promotion_demotion.md R161-R175)
  | .prom8u16 => Sys2Proof.Machine.execProm8u16 s
  | .prom8u32 => Sys2Proof.Machine.execProm8u32 s
  | .prom8u64 => Sys2Proof.Machine.execProm8u64 s
  | .prom8i16 => Sys2Proof.Machine.execProm8i16 s
  | .prom8i32 => Sys2Proof.Machine.execProm8i32 s
  | .prom8i64 => Sys2Proof.Machine.execProm8i64 s
  | .prom16u32 => Sys2Proof.Machine.execProm16u32 s
  | .prom16u64 => Sys2Proof.Machine.execProm16u64 s
  | .prom16i32 => Sys2Proof.Machine.execProm16i32 s
  | .prom16i64 => Sys2Proof.Machine.execProm16i64 s
  | .prom32u64 => Sys2Proof.Machine.execProm32u64 s
  | .prom32i64 => Sys2Proof.Machine.execProm32i64 s
  | .dem64to16 => Sys2Proof.Machine.execDem64to16 s
  | .dem64to8 => Sys2Proof.Machine.execDem64to8 s
  | .dem32to8 => Sys2Proof.Machine.execDem32to8 s
  -- Integer addition, subtraction and multiplication (42_integer_arithmetic.md R185-R204)
  | .add8 => Sys2Proof.Machine.execAdd8 s
  | .add16 => Sys2Proof.Machine.execAdd16 s
  | .add32 => Sys2Proof.Machine.execAdd32 s
  | .add64 => Sys2Proof.Machine.execAdd64 s
  | .sub8 => Sys2Proof.Machine.execSub8 s
  | .sub16 => Sys2Proof.Machine.execSub16 s
  | .sub32 => Sys2Proof.Machine.execSub32 s
  | .sub64 => Sys2Proof.Machine.execSub64 s
  | .subr8 => Sys2Proof.Machine.execSubr8 s
  | .subr16 => Sys2Proof.Machine.execSubr16 s
  | .subr32 => Sys2Proof.Machine.execSubr32 s
  | .subr64 => Sys2Proof.Machine.execSubr64 s
  | .mulu8 => Sys2Proof.Machine.execMulu8 s
  | .mulu16 => Sys2Proof.Machine.execMulu16 s
  | .mulu32 => Sys2Proof.Machine.execMulu32 s
  | .mulu64 => Sys2Proof.Machine.execMulu64 s
  | .muli8 => Sys2Proof.Machine.execMuli8 s
  | .muli16 => Sys2Proof.Machine.execMuli16 s
  | .muli32 => Sys2Proof.Machine.execMuli32 s
  | .muli64 => Sys2Proof.Machine.execMuli64 s
  -- Integer division and remainder (42_integer_arithmetic.md R205-R236)
  | .divu8 => Sys2Proof.Machine.execDivu8 s
  | .divu16 => Sys2Proof.Machine.execDivu16 s
  | .divu32 => Sys2Proof.Machine.execDivu32 s
  | .divu64 => Sys2Proof.Machine.execDivu64 s
  | .divru8 => Sys2Proof.Machine.execDivru8 s
  | .divru16 => Sys2Proof.Machine.execDivru16 s
  | .divru32 => Sys2Proof.Machine.execDivru32 s
  | .divru64 => Sys2Proof.Machine.execDivru64 s
  | .divi8 => Sys2Proof.Machine.execDivi8 s
  | .divi16 => Sys2Proof.Machine.execDivi16 s
  | .divi32 => Sys2Proof.Machine.execDivi32 s
  | .divi64 => Sys2Proof.Machine.execDivi64 s
  | .divri8 => Sys2Proof.Machine.execDivri8 s
  | .divri16 => Sys2Proof.Machine.execDivri16 s
  | .divri32 => Sys2Proof.Machine.execDivri32 s
  | .divri64 => Sys2Proof.Machine.execDivri64 s
  | .modu8 => Sys2Proof.Machine.execModu8 s
  | .modu16 => Sys2Proof.Machine.execModu16 s
  | .modu32 => Sys2Proof.Machine.execModu32 s
  | .modu64 => Sys2Proof.Machine.execModu64 s
  | .modru8 => Sys2Proof.Machine.execModru8 s
  | .modru16 => Sys2Proof.Machine.execModru16 s
  | .modru32 => Sys2Proof.Machine.execModru32 s
  | .modru64 => Sys2Proof.Machine.execModru64 s
  | .modi8 => Sys2Proof.Machine.execModi8 s
  | .modi16 => Sys2Proof.Machine.execModi16 s
  | .modi32 => Sys2Proof.Machine.execModi32 s
  | .modi64 => Sys2Proof.Machine.execModi64 s
  | .modri8 => Sys2Proof.Machine.execModri8 s
  | .modri16 => Sys2Proof.Machine.execModri16 s
  | .modri32 => Sys2Proof.Machine.execModri32 s
  | .modri64 => Sys2Proof.Machine.execModri64 s
  -- Bitwise shift operations (43_shift_bitwise.md R254-R265)
  | .lshift8 => Sys2Proof.Machine.execLshift8 s
  | .lshift16 => Sys2Proof.Machine.execLshift16 s
  | .lshift32 => Sys2Proof.Machine.execLshift32 s
  | .lshift64 => Sys2Proof.Machine.execLshift64 s
  | .rshiftu8 => Sys2Proof.Machine.execRshiftu8 s
  | .rshiftu16 => Sys2Proof.Machine.execRshiftu16 s
  | .rshiftu32 => Sys2Proof.Machine.execRshiftu32 s
  | .rshiftu64 => Sys2Proof.Machine.execRshiftu64 s
  | .rshifti8 => Sys2Proof.Machine.execRshifti8 s
  | .rshifti16 => Sys2Proof.Machine.execRshifti16 s
  | .rshifti32 => Sys2Proof.Machine.execRshifti32 s
  | .rshifti64 => Sys2Proof.Machine.execRshifti64 s
  -- Bitwise logical operations (43_shift_bitwise.md R266-R281)
  | .band8 => Sys2Proof.Machine.execBand8 s
  | .band16 => Sys2Proof.Machine.execBand16 s
  | .band32 => Sys2Proof.Machine.execBand32 s
  | .band64 => Sys2Proof.Machine.execBand64 s
  | .bor8 => Sys2Proof.Machine.execBor8 s
  | .bor16 => Sys2Proof.Machine.execBor16 s
  | .bor32 => Sys2Proof.Machine.execBor32 s
  | .bor64 => Sys2Proof.Machine.execBor64 s
  | .bxor8 => Sys2Proof.Machine.execBxor8 s
  | .bxor16 => Sys2Proof.Machine.execBxor16 s
  | .bxor32 => Sys2Proof.Machine.execBxor32 s
  | .bxor64 => Sys2Proof.Machine.execBxor64 s
  | .binv8 => Sys2Proof.Machine.execBinv8 s
  | .binv16 => Sys2Proof.Machine.execBinv16 s
  | .binv32 => Sys2Proof.Machine.execBinv32 s
  | .binv64 => Sys2Proof.Machine.execBinv64 s
  -- Boolean logical operations (44_boolean_comparison.md R292-R303)
  | .land8 => Sys2Proof.Machine.execLand8 s
  | .land16 => Sys2Proof.Machine.execLand16 s
  | .land32 => Sys2Proof.Machine.execLand32 s
  | .land64 => Sys2Proof.Machine.execLand64 s
  | .lor8 => Sys2Proof.Machine.execLor8 s
  | .lor16 => Sys2Proof.Machine.execLor16 s
  | .lor32 => Sys2Proof.Machine.execLor32 s
  | .lor64 => Sys2Proof.Machine.execLor64 s
  | .linv8 => Sys2Proof.Machine.execLinv8 s
  | .linv16 => Sys2Proof.Machine.execLinv16 s
  | .linv32 => Sys2Proof.Machine.execLinv32 s
  | .linv64 => Sys2Proof.Machine.execLinv64 s
  -- Comparison operations (44_boolean_comparison.md R304-R343)
  | .ceq8 => Sys2Proof.Machine.execCeq8 s
  | .ceq16 => Sys2Proof.Machine.execCeq16 s
  | .ceq32 => Sys2Proof.Machine.execCeq32 s
  | .ceq64 => Sys2Proof.Machine.execCeq64 s
  | .cne8 => Sys2Proof.Machine.execCne8 s
  | .cne16 => Sys2Proof.Machine.execCne16 s
  | .cne32 => Sys2Proof.Machine.execCne32 s
  | .cne64 => Sys2Proof.Machine.execCne64 s
  | .cgtu8 => Sys2Proof.Machine.execCgtu8 s
  | .cgtu16 => Sys2Proof.Machine.execCgtu16 s
  | .cgtu32 => Sys2Proof.Machine.execCgtu32 s
  | .cgtu64 => Sys2Proof.Machine.execCgtu64 s
  | .cgti8 => Sys2Proof.Machine.execCgti8 s
  | .cgti16 => Sys2Proof.Machine.execCgti16 s
  | .cgti32 => Sys2Proof.Machine.execCgti32 s
  | .cgti64 => Sys2Proof.Machine.execCgti64 s
  | .cltu8 => Sys2Proof.Machine.execCltu8 s
  | .cltu16 => Sys2Proof.Machine.execCltu16 s
  | .cltu32 => Sys2Proof.Machine.execCltu32 s
  | .cltu64 => Sys2Proof.Machine.execCltu64 s
  | .clti8 => Sys2Proof.Machine.execClti8 s
  | .clti16 => Sys2Proof.Machine.execClti16 s
  | .clti32 => Sys2Proof.Machine.execClti32 s
  | .clti64 => Sys2Proof.Machine.execClti64 s
  | .cgteu8 => Sys2Proof.Machine.execCgteu8 s
  | .cgteu16 => Sys2Proof.Machine.execCgteu16 s
  | .cgteu32 => Sys2Proof.Machine.execCgteu32 s
  | .cgteu64 => Sys2Proof.Machine.execCgteu64 s
  | .cgtei8 => Sys2Proof.Machine.execCgtei8 s
  | .cgtei16 => Sys2Proof.Machine.execCgtei16 s
  | .cgtei32 => Sys2Proof.Machine.execCgtei32 s
  | .cgtei64 => Sys2Proof.Machine.execCgtei64 s
  | .clteu8 => Sys2Proof.Machine.execClteu8 s
  | .clteu16 => Sys2Proof.Machine.execClteu16 s
  | .clteu32 => Sys2Proof.Machine.execClteu32 s
  | .clteu64 => Sys2Proof.Machine.execClteu64 s
  | .cltei8 => Sys2Proof.Machine.execCltei8 s
  | .cltei16 => Sys2Proof.Machine.execCltei16 s
  | .cltei32 => Sys2Proof.Machine.execCltei32 s
  | .cltei64 => Sys2Proof.Machine.execCltei64 s
  -- Function call and return (45_call_return.md R351-R353)
  | .call imm => Sys2Proof.Machine.execCall imm s
  | .calls => Sys2Proof.Machine.execCalls s
  | .ret => Sys2Proof.Machine.execRet s
  -- Jump instructions (46_jump_branch.md R371-R375)
  | .jmp imm => Sys2Proof.Machine.execJmp imm s
  | .jmps => Sys2Proof.Machine.execJmps s
  | .rjmpi8 imm => Sys2Proof.Machine.execRjmpi8 imm s
  | .rjmpi16 imm => Sys2Proof.Machine.execRjmpi16 imm s
  | .rjmpi32 imm => Sys2Proof.Machine.execRjmpi32 imm s
  -- Branching instructions (46_jump_branch.md R376-R391)
  | .brz8 imm => Sys2Proof.Machine.execBrz8 imm s
  | .brz16 imm => Sys2Proof.Machine.execBrz16 imm s
  | .brz32 imm => Sys2Proof.Machine.execBrz32 imm s
  | .brz64 imm => Sys2Proof.Machine.execBrz64 imm s
  | .rbrz8i8 imm => Sys2Proof.Machine.execRbrz8i8 imm s
  | .rbrz8i16 imm => Sys2Proof.Machine.execRbrz8i16 imm s
  | .rbrz8i32 imm => Sys2Proof.Machine.execRbrz8i32 imm s
  | .rbrz16i8 imm => Sys2Proof.Machine.execRbrz16i8 imm s
  | .rbrz16i16 imm => Sys2Proof.Machine.execRbrz16i16 imm s
  | .rbrz16i32 imm => Sys2Proof.Machine.execRbrz16i32 imm s
  | .rbrz32i8 imm => Sys2Proof.Machine.execRbrz32i8 imm s
  | .rbrz32i16 imm => Sys2Proof.Machine.execRbrz32i16 imm s
  | .rbrz32i32 imm => Sys2Proof.Machine.execRbrz32i32 imm s
  | .rbrz64i8 imm => Sys2Proof.Machine.execRbrz64i8 imm s
  | .rbrz64i16 imm => Sys2Proof.Machine.execRbrz64i16 imm s
  | .rbrz64i32 imm => Sys2Proof.Machine.execRbrz64i32 imm s
  -- Memory operations: loads (47_memory_ops.md R402-R417)
  | .load8 => Sys2Proof.Machine.execLoad8 s
  | .load16 => Sys2Proof.Machine.execLoad16 s
  | .load32 => Sys2Proof.Machine.execLoad32 s
  | .load64 => Sys2Proof.Machine.execLoad64 s
  | .loadpop8 => Sys2Proof.Machine.execLoadpop8 s
  | .loadpop16 => Sys2Proof.Machine.execLoadpop16 s
  | .loadpop32 => Sys2Proof.Machine.execLoadpop32 s
  | .loadpop64 => Sys2Proof.Machine.execLoadpop64 s
  | .loadsfp8 => Sys2Proof.Machine.execLoadsfp8 s
  | .loadsfp16 => Sys2Proof.Machine.execLoadsfp16 s
  | .loadsfp32 => Sys2Proof.Machine.execLoadsfp32 s
  | .loadsfp64 => Sys2Proof.Machine.execLoadsfp64 s
  | .loadpopsfp8 => Sys2Proof.Machine.execLoadpopsfp8 s
  | .loadpopsfp16 => Sys2Proof.Machine.execLoadpopsfp16 s
  | .loadpopsfp32 => Sys2Proof.Machine.execLoadpopsfp32 s
  | .loadpopsfp64 => Sys2Proof.Machine.execLoadpopsfp64 s
  -- Memory operations: stores, value on top (47_memory_ops.md R418-R433)
  | .store8 => Sys2Proof.Machine.execStore8 s
  | .store16 => Sys2Proof.Machine.execStore16 s
  | .store32 => Sys2Proof.Machine.execStore32 s
  | .store64 => Sys2Proof.Machine.execStore64 s
  | .storepop8 => Sys2Proof.Machine.execStorepop8 s
  | .storepop16 => Sys2Proof.Machine.execStorepop16 s
  | .storepop32 => Sys2Proof.Machine.execStorepop32 s
  | .storepop64 => Sys2Proof.Machine.execStorepop64 s
  | .storesfp8 => Sys2Proof.Machine.execStoresfp8 s
  | .storesfp16 => Sys2Proof.Machine.execStoresfp16 s
  | .storesfp32 => Sys2Proof.Machine.execStoresfp32 s
  | .storesfp64 => Sys2Proof.Machine.execStoresfp64 s
  | .storepopsfp8 => Sys2Proof.Machine.execStorepopsfp8 s
  | .storepopsfp16 => Sys2Proof.Machine.execStorepopsfp16 s
  | .storepopsfp32 => Sys2Proof.Machine.execStorepopsfp32 s
  | .storepopsfp64 => Sys2Proof.Machine.execStorepopsfp64 s
  -- Memory operations: stores, address on top (47_memory_ops.md R434-R449)
  | .storer8 => Sys2Proof.Machine.execStorer8 s
  | .storer16 => Sys2Proof.Machine.execStorer16 s
  | .storer32 => Sys2Proof.Machine.execStorer32 s
  | .storer64 => Sys2Proof.Machine.execStorer64 s
  | .storerpop8 => Sys2Proof.Machine.execStorerpop8 s
  | .storerpop16 => Sys2Proof.Machine.execStorerpop16 s
  | .storerpop32 => Sys2Proof.Machine.execStorerpop32 s
  | .storerpop64 => Sys2Proof.Machine.execStorerpop64 s
  | .storersfp8 => Sys2Proof.Machine.execStorersfp8 s
  | .storersfp16 => Sys2Proof.Machine.execStorersfp16 s
  | .storersfp32 => Sys2Proof.Machine.execStorersfp32 s
  | .storersfp64 => Sys2Proof.Machine.execStorersfp64 s
  | .storerpopsfp8 => Sys2Proof.Machine.execStorerpopsfp8 s
  | .storerpopsfp16 => Sys2Proof.Machine.execStorerpopsfp16 s
  | .storerpopsfp32 => Sys2Proof.Machine.execStorerpopsfp32 s
  | .storerpopsfp64 => Sys2Proof.Machine.execStorerpopsfp64 s
  -- Miscellaneous operations (48_misc.md R460-R467)
  | .setsbp imm => Sys2Proof.Machine.execSetsbp imm s
  | .setsfp imm => Sys2Proof.Machine.execSetsfp imm s
  | .setsp imm => Sys2Proof.Machine.execSetsp imm s
  | .setslp imm => Sys2Proof.Machine.execSetslp imm s
  | .nop => Sys2Proof.Machine.execNop s
  | .ext => Sys2Proof.Machine.execExt s
  | .halt => Sys2Proof.Machine.execHalt s
  | .invalid => Sys2Proof.Machine.execInvalid s

end Sys2Proof.Machine
end

