-- ==== Sys2Proof/Machine/Step.lean ====
section
/-! DEFINITION. One step of the machine (spec 30_encoding.md R94). -/

namespace Sys2Proof.Machine

/-- One step. A running machine fetches, decodes and executes, or raises; a halted or faulted machine takes no step. -/
def step (s : State) : Host.Outcome State Fault Refusal :=
  match s.status with
  | .running => match fetchInstr s with
    | .ok i => exec i s
    | .error c => .next (s.raise c)
  | .halted => .fault .halted
  | .faulted c => .fault (.faulted c)

/-- s with an instruction, in the numbering of spec/opcode_table.json, stored at PC, where step fetches next (log 4). -/
def State.withFetchWord (s : State) (nbits w : Nat) : State := { s with mem := s.mem.placeWord s.pc nbits w }

end Sys2Proof.Machine
end

