-- ==== Sys2Proof/WellFormed.lean ====
section
/-! DEFINITION. Well-formedness: of an op code numbering and a launch configuration (spec 00_scope.md R5,
93_implementation_defined.md section 1), and of an instruction under a numbering. The fields of an instruction need no
check: each immediate has exactly the width of its format (30_encoding.md R91), and every value of it is legal. -/

namespace Sys2Proof

/-- OPC is "an injective map from the 255 mnemonics to byte values 0..255" (30_encoding.md R95). -/
def opcWf (opc : List Byte) : Bool := opc.length == 255 && decide opc.Nodup

/-- A configuration inside the stated ranges of its parameters: BOOLW and DIV_OVERFLOW are so by their types, and any set
of addresses may be MAPPED. -/
def Platform.wf (p : Platform) : Bool := opcWf p.opc

/-- An instruction that the numbering can write and read back: OPC gives its mnemonic a byte, and gives that byte to no
mnemonic before it. -/
def Instr.wf (opc : List Byte) (i : Instr) : Bool :=
  match opc[i.number]? with
  | none => false
  | some b => opc.idxOf? b == some i.number

end Sys2Proof
end

