-- ==== Sys2Proof/Safety.lean ====
section
/-! DEFINITION. The vocabulary of the claims: when checks and accesses pass, what an instruction leaves unchanged, and
tables that say, independently of the meanings, what the spec's tables say of each instruction. -/

namespace Sys2Proof.Machine

/-! ## When checks and accesses pass -/

/-- StackCheck(nIn, nOut) raises nothing (20_memory.md R61). -/
abbrev StackOk (s : State) (nIn nOut : Nat) : Prop :=
  s.sp.toNat + nIn ≤ s.sbp.toNat ∧ s.slp.toNat + nOut ≤ s.sp.toNat + nIn

/-- Each of the n addresses from a on is mapped (20_memory.md R55). -/
abbrev MappedOk (s : State) (a : Addr) (n : Nat) : Prop := ∀ j < n, s.mapped (up a j) = true

/-- A data access to the n addresses from a on raises nothing: none is in the protected window and each is mapped
(20_memory.md R57, R58). -/
abbrev DataOk (s : State) (a : Addr) (n : Nat) : Prop := ∀ j < n, s.inWindow (up a j) = false ∧ s.mapped (up a j) = true

/-- The cause that an access to the n addresses from a on raises: FrameFault for the first address in the window, before
AccessFault for the first address that is not mapped. -/
abbrev DataFault (s : State) (a : Addr) (n : Nat) (c : FaultCause) : Prop :=
  (∃ j < n, c = .frameFault (up a j) ∧ s.inWindow (up a j) = true ∧ ∀ k < j, s.inWindow (up a k) = false) ∨
  ((∀ j < n, s.inWindow (up a j) = false) ∧
    ∃ j < n, c = .accessFault (up a j) ∧ s.mapped (up a j) = false ∧ ∀ k < j, s.mapped (up a k) = true)

/-- An instruction that takes one element of width wa and leaves one of width wr passes its checks. -/
structure UnaryOk (s : State) (wa wr : Width) : Prop where
  stack : StackOk s wa.bytes wr.bytes
  top : DataOk s s.sp wa.bytes
  result : DataOk s (resultAddr s wa.bytes wr.bytes) wr.bytes

/-- An instruction that takes an element of width wb from the top and one of width wa beneath it, and computes, passes its
checks before it computes. -/
structure OperandsOk (s : State) (wa wb wr : Width) : Prop where
  stack : StackOk s (wa.bytes + wb.bytes) wr.bytes
  top : DataOk s s.sp wb.bytes
  beneath : DataOk s (up s.sp wb.bytes) wa.bytes

/-- An instruction that takes two elements and leaves one of width wr passes its checks. -/
structure BinaryOk (s : State) (wa wb wr : Width) : Prop where
  operands : OperandsOk s wa wb wr
  result : DataOk s (resultAddr s (wa.bytes + wb.bytes) wr.bytes) wr.bytes

/-- The deeper operand of a binary instruction. -/
def State.beneath (s : State) (wa wb : Width) : Elem wa := s.elem (up s.sp wb.bytes) wa

/-- A load passes its checks: nOut is the size of its "Stack After", and the value takes the place of nIn bytes. -/
structure LoadOk (s : State) (w : Width) (mode : AddrMode) (nIn nOut : Nat) : Prop where
  stack : StackOk s 8 nOut
  address : DataOk s s.sp 8
  data : DataOk s (effAddr s mode (s.elem s.sp .w64)) w.bytes
  result : DataOk s (resultAddr s nIn w.bytes) w.bytes

/-- A store passes its checks: wTop is the width of the top element, wBelow of the one beneath it, ea the address and w
the width of the data write. -/
structure StoreOk (s : State) (wTop wBelow : Width) (nPop : Nat) (ea : Addr) (w : Width) : Prop where
  stack : StackOk s (8 + w.bytes) (8 + w.bytes - nPop)
  top : DataOk s s.sp wTop.bytes
  below : DataOk s (up s.sp wTop.bytes) wBelow.bytes
  data : DataOk s ea w.bytes

/-- Where a store whose address lies beneath its value writes. -/
def storeTopAddr (s : State) (w : Width) (mode : AddrMode) : Addr := effAddr s mode (s.elem (up s.sp w.bytes) .w64)

/-- Where a store whose address is on top writes. -/
def storeBeneathAddr (s : State) (mode : AddrMode) : Addr := effAddr s mode (s.elem s.sp .w64)

/-- ret passes its checks (45_call_return.md R353). -/
structure RetOk (s : State) : Prop where
  reta : MappedOk s s.sfp 8
  psfp : MappedOk s (up s.sfp 8) 8
  bottom : s.sfp.toNat + 16 ≤ s.sbp.toNat
  limit : s.slp.toNat ≤ s.sfp.toNat + 16

/-! ## What an instruction leaves unchanged -/

/-- x is one of the n addresses from a on, modulo 2^64. -/
abbrev Within (a : Addr) (n : Nat) (x : Addr) : Prop := (x - a).toNat < n

/-- Every byte of memory but the n bytes from a on reads as before. -/
abbrev SameMemBut (s t : State) (a : Addr) (n : Nat) : Prop :=
  ∀ x : Addr, ¬ Within a n x → t.mem.get x.toNat = s.mem.get x.toNat

/-- Everything but PC, SP and memory is as before. -/
structure SameRest (s t : State) : Prop where
  sbp : t.sbp = s.sbp
  sfp : t.sfp = s.sfp
  slp : t.slp = s.slp
  status : t.status = s.status
  cfg : t.cfg = s.cfg

/-- t is s after an instruction of length len that took nIn bytes of operands from the stack and left v in their place: SP
and PC have moved, v is the top element, and nothing else has changed. -/
structure LeavesElem (s t : State) (nIn : Nat) (w : Width) (v : Elem w) (len : Nat) : Prop where
  value : t.elem (resultAddr s nIn w.bytes) w = v
  sp : t.sp = resultAddr s nIn w.bytes
  pc : t.pc = up s.pc len
  mem : SameMemBut s t (resultAddr s nIn w.bytes) w.bytes
  rest : SameRest s t

/-- t is s after a store of v at the address ea, of an instruction that popped nPop bytes. -/
structure StoresElem (s t : State) (ea : Addr) (w : Width) (v : Elem w) (nPop : Nat) : Prop where
  value : t.elem ea w = v
  sp : t.sp = up s.sp nPop
  pc : t.pc = up s.pc 1
  mem : SameMemBut s t ea w.bytes
  rest : SameRest s t

/-- SLP ≤ SP ≤ SBP, on unbounded integers (20_memory.md R61). -/
abbrev StackInBounds (s : State) : Prop := s.slp.toNat ≤ s.sp.toNat ∧ s.sp.toNat ≤ s.sbp.toNat

/-- What every step keeps: memory in canonical form, and a configuration inside its stated ranges. -/
abbrev Inv (s : State) : Prop := s.mem.wf = true ∧ s.cfg.wf = true

/-- Two states that differ at most in what the bytes at the addresses read as of which p holds. -/
structure SameOutside (p : Addr → Bool) (s t : State) : Prop where
  pc : t.pc = s.pc
  sbp : t.sbp = s.sbp
  sfp : t.sfp = s.sfp
  sp : t.sp = s.sp
  slp : t.slp = s.slp
  status : t.status = s.status
  cfg : t.cfg = s.cfg
  mem : ∀ x : Addr, p x = false → t.mem.get x.toNat = s.mem.get x.toNat

/-- t is s after a call: the new frame's control data lie at lo, RETA below PSFP, and control is at the target
(45_call_return.md R350). -/
structure EntersFrame (s t : State) (lo reta target : Addr) : Prop where
  reta : t.elem lo .w64 = reta
  psfp : t.elem (up lo 8) .w64 = s.sfp
  sp : t.sp = lo
  sfp : t.sfp = lo
  pc : t.pc = target
  mem : SameMemBut s t lo 16
  sbp : t.sbp = s.sbp
  slp : t.slp = s.slp
  status : t.status = s.status
  cfg : t.cfg = s.cfg

/-- The state after the instructions of a list, executed one after the other, if each answers a next state. -/
def execAll : List Instr → State → Option State
  | [], s => some s
  | i :: is, s =>
    match exec i s with
    | .next t => execAll is t
    | _ => none

end Sys2Proof.Machine

namespace Sys2Proof

open Sys2Proof.Machine

/-! ## The spec's tables, instruction by instruction -/

/-- The arguments of the instruction's StackCheck, if it performs one: the bytes of its stack operands and of its stack
results (20_memory.md R61). ret performs a check of its own (45_call_return.md R353). -/
def Instr.stackUse (i : Instr) (s : State) : Option (Nat × Nat) :=
  match i with
  | .push8 _ => some (0, 1)
  | .push8asu16 _ | .push8asi16 _ | .push16 _ => some (0, 2)
  | .push8asu32 _ | .push8asi32 _ | .push16asu32 _ | .push16asi32 _ | .push32 _ => some (0, 4)
  | .push8asu64 _ | .push8asi64 _ | .push16asu64 _ | .push16asi64 _ | .push32asu64 _ | .push32asi64 _ | .push64 _
    => some (0, 8)
  | .pop8 | .brz8 _ | .rbrz8i8 _ | .rbrz8i16 _ | .rbrz8i32 _ => some (1, 0)
  | .pop16 | .brz16 _ | .rbrz16i8 _ | .rbrz16i16 _ | .rbrz16i32 _ => some (2, 0)
  | .pop32 | .brz32 _ | .rbrz32i8 _ | .rbrz32i16 _ | .rbrz32i32 _ => some (4, 0)
  | .pop64 | .jmps | .brz64 _ | .rbrz64i8 _ | .rbrz64i16 _ | .rbrz64i32 _ => some (8, 0)
  | .dup8 | .prom8u16 | .prom8i16 => some (1, 2)
  | .dup16 | .prom16u32 | .prom16i32 => some (2, 4)
  | .dup32 | .prom32u64 | .prom32i64 => some (4, 8)
  | .dup64 | .calls | .load64 | .loadsfp64 => some (8, 16)
  | .set8 | .add8 | .sub8 | .subr8 | .mulu8 | .muli8 | .divu8 | .divru8 | .divi8 | .divri8 | .modu8 | .modru8
  | .modi8 | .modri8 | .lshift8 | .rshiftu8 | .rshifti8 | .band8 | .bor8 | .bxor8 => some (2, 1)
  | .set16 | .add16 | .sub16 | .subr16 | .mulu16 | .muli16 | .divu16 | .divru16 | .divi16 | .divri16 | .modu16
  | .modru16 | .modi16 | .modri16 | .band16 | .bor16 | .bxor16 => some (4, 2)
  | .set32 | .add32 | .sub32 | .subr32 | .mulu32 | .muli32 | .divu32 | .divru32 | .divi32 | .divri32 | .modu32
  | .modru32 | .modi32 | .modri32 | .band32 | .bor32 | .bxor32 | .loadpop32 | .loadpopsfp32 => some (8, 4)
  | .set64 | .add64 | .sub64 | .subr64 | .mulu64 | .muli64 | .divu64 | .divru64 | .divi64 | .divri64 | .modu64
  | .modru64 | .modi64 | .modri64 | .band64 | .bor64 | .bxor64 | .storepop64 | .storepopsfp64 | .storerpop64
  | .storerpopsfp64 => some (16, 8)
  | .prom8u32 | .prom8i32 => some (1, 4)
  | .prom8u64 | .prom8i64 => some (1, 8)
  | .prom16u64 | .prom16i64 => some (2, 8)
  | .dem64to16 | .loadpop16 | .loadpopsfp16 => some (8, 2)
  | .dem64to8 | .loadpop8 | .loadpopsfp8 => some (8, 1)
  | .dem32to8 => some (4, 1)
  | .lshift16 | .rshiftu16 | .rshifti16 => some (3, 2)
  | .lshift32 | .rshiftu32 | .rshifti32 => some (5, 4)
  | .lshift64 | .rshiftu64 | .rshifti64 | .storepop8 | .storepopsfp8 => some (9, 8)
  | .binv8 => some (1, 1)
  | .binv16 => some (2, 2)
  | .binv32 => some (4, 4)
  | .binv64 | .loadpop64 | .loadpopsfp64 => some (8, 8)
  | .land8 | .lor8 | .ceq8 | .cne8 | .cgtu8 | .cgti8 | .cltu8 | .clti8 | .cgteu8 | .cgtei8 | .clteu8 | .cltei8
    => some (2, (boolWidth s .w8).bytes)
  | .land16 | .lor16 | .ceq16 | .cne16 | .cgtu16 | .cgti16 | .cltu16 | .clti16 | .cgteu16 | .cgtei16 | .clteu16
  | .cltei16 => some (4, (boolWidth s .w16).bytes)
  | .land32 | .lor32 | .ceq32 | .cne32 | .cgtu32 | .cgti32 | .cltu32 | .clti32 | .cgteu32 | .cgtei32 | .clteu32
  | .cltei32 => some (8, (boolWidth s .w32).bytes)
  | .land64 | .lor64 | .ceq64 | .cne64 | .cgtu64 | .cgti64 | .cltu64 | .clti64 | .cgteu64 | .cgtei64 | .clteu64
  | .cltei64 => some (16, (boolWidth s .w64).bytes)
  | .linv8 => some (1, (boolWidth s .w8).bytes)
  | .linv16 => some (2, (boolWidth s .w16).bytes)
  | .linv32 => some (4, (boolWidth s .w32).bytes)
  | .linv64 => some (8, (boolWidth s .w64).bytes)
  | .call _ => some (0, 16)
  | .ret | .jmp _ | .rjmpi8 _ | .rjmpi16 _ | .rjmpi32 _ | .setsbp _ | .setsfp _ | .setsp _ | .setslp _ | .nop
  | .ext | .halt | .invalid => none
  | .load8 | .loadsfp8 => some (8, 9)
  | .load16 | .loadsfp16 => some (8, 10)
  | .load32 | .loadsfp32 => some (8, 12)
  | .store8 | .storesfp8 | .storer8 | .storersfp8 => some (9, 9)
  | .store16 | .storesfp16 | .storer16 | .storersfp16 => some (10, 10)
  | .store32 | .storesfp32 | .storer32 | .storersfp32 => some (12, 12)
  | .store64 | .storesfp64 | .storer64 | .storersfp64 => some (16, 16)
  | .storepop16 | .storepopsfp16 => some (10, 8)
  | .storepop32 | .storepopsfp32 => some (12, 8)
  | .storerpop8 | .storerpopsfp8 => some (9, 1)
  | .storerpop16 | .storerpopsfp16 => some (10, 2)
  | .storerpop32 | .storerpopsfp32 => some (12, 4)

/-- A push: the width of the element, and the integer it stands for in which reading (40_push_pop_dup_set.md
R121 to R136). -/
def Instr.pushes (i : Instr) : Option (Width × Signedness × Int) :=
  match i with
  | .push8 imm => some (.w8, .unsigned, imm.toNat)
  | .push8asu16 imm => some (.w16, .unsigned, imm.toNat)
  | .push8asu32 imm => some (.w32, .unsigned, imm.toNat)
  | .push8asu64 imm => some (.w64, .unsigned, imm.toNat)
  | .push8asi16 imm => some (.w16, .signed, imm.toInt)
  | .push8asi32 imm => some (.w32, .signed, imm.toInt)
  | .push8asi64 imm => some (.w64, .signed, imm.toInt)
  | .push16 imm => some (.w16, .unsigned, imm.toNat)
  | .push16asu32 imm => some (.w32, .unsigned, imm.toNat)
  | .push16asu64 imm => some (.w64, .unsigned, imm.toNat)
  | .push16asi32 imm => some (.w32, .signed, imm.toInt)
  | .push16asi64 imm => some (.w64, .signed, imm.toInt)
  | .push32 imm => some (.w32, .unsigned, imm.toNat)
  | .push32asu64 imm => some (.w64, .unsigned, imm.toNat)
  | .push32asi64 imm => some (.w64, .signed, imm.toInt)
  | .push64 imm => some (.w64, .unsigned, imm.toNat)
  | _ => none

/-- A pop: the width of the element (40_push_pop_dup_set.md R137 to R140). -/
def Instr.pops (i : Instr) : Option Width :=
  match i with
  | .pop8 => some .w8
  | .pop16 => some .w16
  | .pop32 => some .w32
  | .pop64 => some .w64
  | _ => none

/-- A duplication: the width of the element (40_push_pop_dup_set.md R141 to R144). -/
def Instr.dups (i : Instr) : Option Width :=
  match i with
  | .dup8 => some .w8
  | .dup16 => some .w16
  | .dup32 => some .w32
  | .dup64 => some .w64
  | _ => none

/-- A set operation: the width of the element (40_push_pop_dup_set.md R145 to R148). -/
def Instr.setsBelow (i : Instr) : Option Width :=
  match i with
  | .set8 => some .w8
  | .set16 => some .w16
  | .set32 => some .w32
  | .set64 => some .w64
  | _ => none

/-- How the integer of an element changes with its width (00_scope.md R7). -/
inductive Conversion where
  | zeroExtend
  | signExtend
  | truncate
deriving DecidableEq, Repr

/-- The element r is the element a in its width. -/
def Conversion.Holds (k : Conversion) {n m : Nat} (a : BitVec n) (r : BitVec m) : Prop :=
  match k with
  | .zeroExtend => r.toNat = a.toNat
  | .signExtend => r.toInt = a.toInt
  | .truncate => r.toNat = a.toNat % 2 ^ m

/-- A promotion or demotion: the widths before and after, and the conversion (41_promotion_demotion.md R161 to R175).
-/
def Instr.converts (i : Instr) : Option (Width × Width × Conversion) :=
  match i with
  | .prom8u16 => some (.w8, .w16, .zeroExtend)
  | .prom8u32 => some (.w8, .w32, .zeroExtend)
  | .prom8u64 => some (.w8, .w64, .zeroExtend)
  | .prom8i16 => some (.w8, .w16, .signExtend)
  | .prom8i32 => some (.w8, .w32, .signExtend)
  | .prom8i64 => some (.w8, .w64, .signExtend)
  | .prom16u32 => some (.w16, .w32, .zeroExtend)
  | .prom16u64 => some (.w16, .w64, .zeroExtend)
  | .prom16i32 => some (.w16, .w32, .signExtend)
  | .prom16i64 => some (.w16, .w64, .signExtend)
  | .prom32u64 => some (.w32, .w64, .zeroExtend)
  | .prom32i64 => some (.w32, .w64, .signExtend)
  | .dem64to16 => some (.w64, .w16, .truncate)
  | .dem64to8 => some (.w64, .w8, .truncate)
  | .dem32to8 => some (.w32, .w8, .truncate)
  | _ => none

/-- The three additive operations. -/
inductive Additive where
  | plus
  | minus
  | minusReversed
deriving DecidableEq, Repr

/-- The mathematical result. -/
def Additive.value : Additive → Int → Int → Int
  | .plus, a, b => a + b
  | .minus, a, b => a - b
  | .minusReversed, a, b => b - a

/-- An addition or subtraction (42_integer_arithmetic.md R185 to R196). -/
def Instr.adds (i : Instr) : Option (Width × Additive) :=
  match i with
  | .add8 => some (.w8, .plus)
  | .add16 => some (.w16, .plus)
  | .add32 => some (.w32, .plus)
  | .add64 => some (.w64, .plus)
  | .sub8 => some (.w8, .minus)
  | .sub16 => some (.w16, .minus)
  | .sub32 => some (.w32, .minus)
  | .sub64 => some (.w64, .minus)
  | .subr8 => some (.w8, .minusReversed)
  | .subr16 => some (.w16, .minusReversed)
  | .subr32 => some (.w32, .minusReversed)
  | .subr64 => some (.w64, .minusReversed)
  | _ => none

/-- A multiplication (42_integer_arithmetic.md R197 to R204). -/
def Instr.muls (i : Instr) : Option (Width × Signedness) :=
  match i with
  | .mulu8 => some (.w8, .unsigned)
  | .mulu16 => some (.w16, .unsigned)
  | .mulu32 => some (.w32, .unsigned)
  | .mulu64 => some (.w64, .unsigned)
  | .muli8 => some (.w8, .signed)
  | .muli16 => some (.w16, .signed)
  | .muli32 => some (.w32, .signed)
  | .muli64 => some (.w64, .signed)
  | _ => none

/-- What a division instruction keeps. -/
inductive DivPart where
  | quotient
  | remainder
deriving DecidableEq, Repr

/-- Which operand divides which: plain a / b, or reversed b / a. -/
inductive DivOrder where
  | plain
  | reversed
deriving DecidableEq, Repr

/-- The dividend, of the operands a and b. -/
def DivOrder.dividend (o : DivOrder) {n : Nat} (a b : BitVec n) : BitVec n :=
  match o with
  | .plain => a
  | .reversed => b

/-- The divisor, of the operands a and b. -/
def DivOrder.divisor (o : DivOrder) {n : Nat} (a b : BitVec n) : BitVec n :=
  match o with
  | .plain => b
  | .reversed => a

/-- q and r are the quotient and the remainder of x by y: unsigned, rounded down; signed, rounded toward zero, so that
r is zero or has the sign of x (42_integer_arithmetic.md R182). -/
def IsDivision (sg : Signedness) (x y q r : Int) : Prop :=
  x = q * y + r ∧
    match sg with
    | .unsigned => 0 ≤ r ∧ r < y
    | .signed => |r| < |y| ∧ (r ≠ 0 → (0 < r ↔ 0 < x))

/-- A division or remainder (42_integer_arithmetic.md R205 to R236). -/
def Instr.divides (i : Instr) : Option (Width × Signedness × DivPart × DivOrder) :=
  match i with
  | .divu8 => some (.w8, .unsigned, .quotient, .plain)
  | .divu16 => some (.w16, .unsigned, .quotient, .plain)
  | .divu32 => some (.w32, .unsigned, .quotient, .plain)
  | .divu64 => some (.w64, .unsigned, .quotient, .plain)
  | .divru8 => some (.w8, .unsigned, .quotient, .reversed)
  | .divru16 => some (.w16, .unsigned, .quotient, .reversed)
  | .divru32 => some (.w32, .unsigned, .quotient, .reversed)
  | .divru64 => some (.w64, .unsigned, .quotient, .reversed)
  | .divi8 => some (.w8, .signed, .quotient, .plain)
  | .divi16 => some (.w16, .signed, .quotient, .plain)
  | .divi32 => some (.w32, .signed, .quotient, .plain)
  | .divi64 => some (.w64, .signed, .quotient, .plain)
  | .divri8 => some (.w8, .signed, .quotient, .reversed)
  | .divri16 => some (.w16, .signed, .quotient, .reversed)
  | .divri32 => some (.w32, .signed, .quotient, .reversed)
  | .divri64 => some (.w64, .signed, .quotient, .reversed)
  | .modu8 => some (.w8, .unsigned, .remainder, .plain)
  | .modu16 => some (.w16, .unsigned, .remainder, .plain)
  | .modu32 => some (.w32, .unsigned, .remainder, .plain)
  | .modu64 => some (.w64, .unsigned, .remainder, .plain)
  | .modru8 => some (.w8, .unsigned, .remainder, .reversed)
  | .modru16 => some (.w16, .unsigned, .remainder, .reversed)
  | .modru32 => some (.w32, .unsigned, .remainder, .reversed)
  | .modru64 => some (.w64, .unsigned, .remainder, .reversed)
  | .modi8 => some (.w8, .signed, .remainder, .plain)
  | .modi16 => some (.w16, .signed, .remainder, .plain)
  | .modi32 => some (.w32, .signed, .remainder, .plain)
  | .modi64 => some (.w64, .signed, .remainder, .plain)
  | .modri8 => some (.w8, .signed, .remainder, .reversed)
  | .modri16 => some (.w16, .signed, .remainder, .reversed)
  | .modri32 => some (.w32, .signed, .remainder, .reversed)
  | .modri64 => some (.w64, .signed, .remainder, .reversed)
  | _ => none

/-- A shift (43_shift_bitwise.md R254 to R265). -/
def Instr.shifts (i : Instr) : Option (Width × ShiftOp) :=
  match i with
  | .lshift8 => some (.w8, .lshift)
  | .lshift16 => some (.w16, .lshift)
  | .lshift32 => some (.w32, .lshift)
  | .lshift64 => some (.w64, .lshift)
  | .rshiftu8 => some (.w8, .rshiftu)
  | .rshiftu16 => some (.w16, .rshiftu)
  | .rshiftu32 => some (.w32, .rshiftu)
  | .rshiftu64 => some (.w64, .rshiftu)
  | .rshifti8 => some (.w8, .rshifti)
  | .rshifti16 => some (.w16, .rshifti)
  | .rshifti32 => some (.w32, .rshifti)
  | .rshifti64 => some (.w64, .rshifti)
  | _ => none

/-- The integer relation between an element a and the result r of shifting it by a count c below the width
(43_shift_bitwise.md R252, R253). -/
def ShiftOp.Holds (op : ShiftOp) {n : Nat} (a : BitVec n) (c : Nat) (r : BitVec n) : Prop :=
  match op with
  | .lshift => r.toNat = a.toNat * 2 ^ c % 2 ^ n
  | .rshiftu => r.toNat = a.toNat / 2 ^ c
  | .rshifti => r.toInt = a.toInt / 2 ^ c

/-- The three binary bitwise operations. -/
inductive BitOp where
  | band
  | bor
  | bxor
deriving DecidableEq, Repr

/-- One bit of the result. -/
def BitOp.value : BitOp → Bool → Bool → Bool
  | .band, a, b => a && b
  | .bor, a, b => a || b
  | .bxor, a, b => a != b

/-- A binary bitwise operation (43_shift_bitwise.md R266 to R277). -/
def Instr.bitwise (i : Instr) : Option (Width × BitOp) :=
  match i with
  | .band8 => some (.w8, .band)
  | .band16 => some (.w16, .band)
  | .band32 => some (.w32, .band)
  | .band64 => some (.w64, .band)
  | .bor8 => some (.w8, .bor)
  | .bor16 => some (.w16, .bor)
  | .bor32 => some (.w32, .bor)
  | .bor64 => some (.w64, .bor)
  | .bxor8 => some (.w8, .bxor)
  | .bxor16 => some (.w16, .bxor)
  | .bxor32 => some (.w32, .bxor)
  | .bxor64 => some (.w64, .bxor)
  | _ => none

/-- A bitwise inversion (43_shift_bitwise.md R278 to R281). -/
def Instr.inverts (i : Instr) : Option Width :=
  match i with
  | .binv8 => some .w8
  | .binv16 => some .w16
  | .binv32 => some .w32
  | .binv64 => some .w64
  | _ => none

/-- The conditions that binary Boolean and comparison instructions compute (44_boolean_comparison.md R291). -/
inductive Relation where
  | bothTrue
  | anyTrue
  | eq
  | ne
  | gt
  | lt
  | ge
  | le
deriving DecidableEq, Repr

/-- The condition, of the integers that the operands stand for. -/
def Relation.Holds : Relation → Int → Int → Prop
  | .bothTrue, a, b => a ≠ 0 ∧ b ≠ 0
  | .anyTrue, a, b => a ≠ 0 ∨ b ≠ 0
  | .eq, a, b => a = b
  | .ne, a, b => a ≠ b
  | .gt, a, b => a > b
  | .lt, a, b => a < b
  | .ge, a, b => a ≥ b
  | .le, a, b => a ≤ b

/-- A binary Boolean operation (44_boolean_comparison.md R292 to R299). -/
def Instr.connects (i : Instr) : Option (Width × Relation) :=
  match i with
  | .land8 => some (.w8, .bothTrue)
  | .land16 => some (.w16, .bothTrue)
  | .land32 => some (.w32, .bothTrue)
  | .land64 => some (.w64, .bothTrue)
  | .lor8 => some (.w8, .anyTrue)
  | .lor16 => some (.w16, .anyTrue)
  | .lor32 => some (.w32, .anyTrue)
  | .lor64 => some (.w64, .anyTrue)
  | _ => none

/-- A Boolean inversion (44_boolean_comparison.md R300 to R303). -/
def Instr.negates (i : Instr) : Option Width :=
  match i with
  | .linv8 => some .w8
  | .linv16 => some .w16
  | .linv32 => some .w32
  | .linv64 => some .w64
  | _ => none

/-- A comparison (44_boolean_comparison.md R304 to R343). -/
def Instr.compares (i : Instr) : Option (Width × Relation × Signedness) :=
  match i with
  | .ceq8 => some (.w8, .eq, .unsigned)
  | .ceq16 => some (.w16, .eq, .unsigned)
  | .ceq32 => some (.w32, .eq, .unsigned)
  | .ceq64 => some (.w64, .eq, .unsigned)
  | .cne8 => some (.w8, .ne, .unsigned)
  | .cne16 => some (.w16, .ne, .unsigned)
  | .cne32 => some (.w32, .ne, .unsigned)
  | .cne64 => some (.w64, .ne, .unsigned)
  | .cgtu8 => some (.w8, .gt, .unsigned)
  | .cgtu16 => some (.w16, .gt, .unsigned)
  | .cgtu32 => some (.w32, .gt, .unsigned)
  | .cgtu64 => some (.w64, .gt, .unsigned)
  | .cgti8 => some (.w8, .gt, .signed)
  | .cgti16 => some (.w16, .gt, .signed)
  | .cgti32 => some (.w32, .gt, .signed)
  | .cgti64 => some (.w64, .gt, .signed)
  | .cltu8 => some (.w8, .lt, .unsigned)
  | .cltu16 => some (.w16, .lt, .unsigned)
  | .cltu32 => some (.w32, .lt, .unsigned)
  | .cltu64 => some (.w64, .lt, .unsigned)
  | .clti8 => some (.w8, .lt, .signed)
  | .clti16 => some (.w16, .lt, .signed)
  | .clti32 => some (.w32, .lt, .signed)
  | .clti64 => some (.w64, .lt, .signed)
  | .cgteu8 => some (.w8, .ge, .unsigned)
  | .cgteu16 => some (.w16, .ge, .unsigned)
  | .cgteu32 => some (.w32, .ge, .unsigned)
  | .cgteu64 => some (.w64, .ge, .unsigned)
  | .cgtei8 => some (.w8, .ge, .signed)
  | .cgtei16 => some (.w16, .ge, .signed)
  | .cgtei32 => some (.w32, .ge, .signed)
  | .cgtei64 => some (.w64, .ge, .signed)
  | .clteu8 => some (.w8, .le, .unsigned)
  | .clteu16 => some (.w16, .le, .unsigned)
  | .clteu32 => some (.w32, .le, .unsigned)
  | .clteu64 => some (.w64, .le, .unsigned)
  | .cltei8 => some (.w8, .le, .signed)
  | .cltei16 => some (.w16, .le, .signed)
  | .cltei32 => some (.w32, .le, .signed)
  | .cltei64 => some (.w64, .le, .signed)
  | _ => none

/-- The address that lies a signed distance from pc, modulo 2^64 (46_jump_branch.md R370). -/
def relative (pc : Addr) (offset : Int) : Addr := BitVec.ofInt 64 (pc.toNat + offset)

/-- A jump without stack operand: its target, of the PC before (46_jump_branch.md R371, R373 to R375). -/
def Instr.jumps (i : Instr) (pc : Addr) : Option Addr :=
  match i with
  | .jmp imm => some imm
  | .rjmpi8 imm => some (relative pc imm.toInt)
  | .rjmpi16 imm => some (relative pc imm.toInt)
  | .rjmpi32 imm => some (relative pc imm.toInt)
  | _ => none

/-- A branch: the width of its operand and its target, of the PC before (46_jump_branch.md R376 to R391). -/
def Instr.branches (i : Instr) (pc : Addr) : Option (Width × Addr) :=
  match i with
  | .brz8 imm => some (.w8, imm)
  | .brz16 imm => some (.w16, imm)
  | .brz32 imm => some (.w32, imm)
  | .brz64 imm => some (.w64, imm)
  | .rbrz8i8 imm => some (.w8, relative pc imm.toInt)
  | .rbrz8i16 imm => some (.w8, relative pc imm.toInt)
  | .rbrz8i32 imm => some (.w8, relative pc imm.toInt)
  | .rbrz16i8 imm => some (.w16, relative pc imm.toInt)
  | .rbrz16i16 imm => some (.w16, relative pc imm.toInt)
  | .rbrz16i32 imm => some (.w16, relative pc imm.toInt)
  | .rbrz32i8 imm => some (.w32, relative pc imm.toInt)
  | .rbrz32i16 imm => some (.w32, relative pc imm.toInt)
  | .rbrz32i32 imm => some (.w32, relative pc imm.toInt)
  | .rbrz64i8 imm => some (.w64, relative pc imm.toInt)
  | .rbrz64i16 imm => some (.w64, relative pc imm.toInt)
  | .rbrz64i32 imm => some (.w64, relative pc imm.toInt)
  | _ => none

/-- Whether a load leaves the address beneath the value. -/
inductive LoadForm where
  | keep
  | pop
deriving DecidableEq, Repr

/-- The bytes of the address that the value takes the place of. -/
def LoadForm.taken : LoadForm → Nat
  | .keep => 0
  | .pop => 8

/-- A load (47_memory_ops.md R402 to R417). -/
def Instr.loads (i : Instr) : Option (Width × AddrMode × LoadForm) :=
  match i with
  | .load8 => some (.w8, .absolute, .keep)
  | .load16 => some (.w16, .absolute, .keep)
  | .load32 => some (.w32, .absolute, .keep)
  | .load64 => some (.w64, .absolute, .keep)
  | .loadpop8 => some (.w8, .absolute, .pop)
  | .loadpop16 => some (.w16, .absolute, .pop)
  | .loadpop32 => some (.w32, .absolute, .pop)
  | .loadpop64 => some (.w64, .absolute, .pop)
  | .loadsfp8 => some (.w8, .sfp, .keep)
  | .loadsfp16 => some (.w16, .sfp, .keep)
  | .loadsfp32 => some (.w32, .sfp, .keep)
  | .loadsfp64 => some (.w64, .sfp, .keep)
  | .loadpopsfp8 => some (.w8, .sfp, .pop)
  | .loadpopsfp16 => some (.w16, .sfp, .pop)
  | .loadpopsfp32 => some (.w32, .sfp, .pop)
  | .loadpopsfp64 => some (.w64, .sfp, .pop)
  | _ => none

/-- A store of the top element to the address beneath it, and how many bytes it pops (47_memory_ops.md R418 to R433).
-/
def Instr.stores (i : Instr) : Option (Width × AddrMode × Nat) :=
  match i with
  | .store8 => some (.w8, .absolute, 0)
  | .store16 => some (.w16, .absolute, 0)
  | .store32 => some (.w32, .absolute, 0)
  | .store64 => some (.w64, .absolute, 0)
  | .storepop8 => some (.w8, .absolute, 1)
  | .storepop16 => some (.w16, .absolute, 2)
  | .storepop32 => some (.w32, .absolute, 4)
  | .storepop64 => some (.w64, .absolute, 8)
  | .storesfp8 => some (.w8, .sfp, 0)
  | .storesfp16 => some (.w16, .sfp, 0)
  | .storesfp32 => some (.w32, .sfp, 0)
  | .storesfp64 => some (.w64, .sfp, 0)
  | .storepopsfp8 => some (.w8, .sfp, 1)
  | .storepopsfp16 => some (.w16, .sfp, 2)
  | .storepopsfp32 => some (.w32, .sfp, 4)
  | .storepopsfp64 => some (.w64, .sfp, 8)
  | _ => none

/-- A store of the element beneath the address on top, and how many bytes it pops (47_memory_ops.md R434 to R449). -/
def Instr.storesReversed (i : Instr) : Option (Width × AddrMode × Nat) :=
  match i with
  | .storer8 => some (.w8, .absolute, 0)
  | .storer16 => some (.w16, .absolute, 0)
  | .storer32 => some (.w32, .absolute, 0)
  | .storer64 => some (.w64, .absolute, 0)
  | .storerpop8 => some (.w8, .absolute, 8)
  | .storerpop16 => some (.w16, .absolute, 8)
  | .storerpop32 => some (.w32, .absolute, 8)
  | .storerpop64 => some (.w64, .absolute, 8)
  | .storersfp8 => some (.w8, .sfp, 0)
  | .storersfp16 => some (.w16, .sfp, 0)
  | .storersfp32 => some (.w32, .sfp, 0)
  | .storersfp64 => some (.w64, .sfp, 0)
  | .storerpopsfp8 => some (.w8, .sfp, 8)
  | .storerpopsfp16 => some (.w16, .sfp, 8)
  | .storerpopsfp32 => some (.w32, .sfp, 8)
  | .storerpopsfp64 => some (.w64, .sfp, 8)
  | _ => none

end Sys2Proof
end

