-- ==== Sys2Proof/Certificates/Slice0/Obligations.lean ====
section
/-! DEFINITION. The statements for the provers. Each docstring gives the rules of spec/ that it formalises; where it names
log entries it states the model's choice. The tables, such as Instr.pushes, and the vocabulary are Safety.lean's. -/

open Sys2Proof Sys2Proof.Machine

/-! ## Encoding (30_encoding.md) -/

/-- O1. Decoding the encoding of any well-formed instruction gives it back, with every immediate (30_encoding.md R90
to R95). -/
def Obligations.DecodeReadsBackEncode : Prop :=
  ∀ (opc : List Byte) (i : Instr) (rest : List Byte), i.wf opc = true →
    decode opc (encode opc i ++ rest) = .ok (i, rest)

/-- O2. Bytes that decode are the encoding of the instruction they decode to (30_encoding.md R90 to R95). -/
def Obligations.EncodeWritesBackDecode : Prop :=
  ∀ (opc bytes : List Byte) (i : Instr) (rest : List Byte), decode opc bytes = .ok (i, rest) →
    i.wf opc = true ∧ encode opc i ++ rest = bytes

/-- O3. Under an injective numbering of the 255 mnemonics every instruction has an encoding of its own (30_encoding.md
R95). -/
def Obligations.EveryInstrEncodable : Prop :=
  ∀ opc : List Byte, opcWf opc = true → ∀ i : Instr, i.wf opc = true

/-- O4. The op code byte alone fixes the mnemonic and the length (30_encoding.md R92; 30_encoding.md R97). -/
def Obligations.OpcodeByteFixesFormat : Prop :=
  ∀ (opc : List Byte) (b : Byte) (bs bs' : List Byte) (i i' : Instr) (r r' : List Byte),
    decode opc (b :: bs) = .ok (i, r) → decode opc (b :: bs') = .ok (i', r') →
      i.number = i'.number ∧ i.length = i'.length

/-- O5. No proper beginning of an encoding decodes (30_encoding.md R90; 30_encoding.md R92). -/
def Obligations.TruncatedEncodingRefused : Prop :=
  ∀ (opc : List Byte) (i : Instr) (k : Nat), i.wf opc = true → k < i.length →
    ∀ r, decode opc ((encode opc i).take k) ≠ .ok r

/-- O6. Words written from the tables of the encoding decode to their instructions (30_encoding.md R91; 30_encoding.md
R95). -/
def Obligations.SampleWordsDecode : Prop :=
  decodeTableWord 8 0x2B = some .add8 ∧ decodeTableWord 8 0xF6 = some .storerpopsfp64 ∧
    decodeTableWord 16 0x8105 = some (.push8asi32 0x81) ∧ decodeTableWord 24 0x800107 = some (.push16 0x8001) ∧
    decodeTableWord 40 0xFFFFFFFEC6 = some (.rbrz64i32 0xFFFFFFFE) ∧
    decodeTableWord 72 0x123456789ABCDEF0AF = some (.call 0x123456789ABCDEF0) ∧ decodeTableWord 8 0xFF = none

/-! ## Steps (30_encoding.md R94, 60_exceptions.md) -/

/-- O7. A step of a running machine runs the instruction decoded at PC (30_encoding.md R94). -/
def Obligations.StepRunsDecoded : Prop :=
  ∀ (s : State) (i : Instr) (rest : List Byte), s.status = .running →
    decode s.cfg.opc (s.mem.bytesAt s.pc maxLength) = .ok (i, rest) → MappedOk s s.pc i.length →
      step s = exec i s

/-- O8. A halted or a faulted machine takes no step (10_state.md R31; 30_encoding.md R94; 60_exceptions.md R484). -/
def Obligations.TerminalStatusTakesNoStep : Prop :=
  (∀ s : State, s.status = .halted → step s = .fault .halted) ∧
    ∀ (s : State) (c : FaultCause), s.status = .faulted c → step s = .fault (.faulted c)

/-- O9. Fetching an unmapped op code or immediate byte raises AccessFault with the first such address (30_encoding.md
R94; 20_memory.md R55, R56; 60_exceptions.md R485). -/
def Obligations.FetchFaults : Prop :=
  ∀ s : State, s.status = .running →
    (s.mapped s.pc = false → step s = .next (s.raise (.accessFault s.pc))) ∧
    ∀ (i : Instr) (rest : List Byte) (j : Nat),
      decode s.cfg.opc (s.mem.bytesAt s.pc maxLength) = .ok (i, rest) → 0 < j → j < i.length →
      s.mapped (up s.pc j) = false → (∀ k < j, s.mapped (up s.pc k) = true) →
        step s = .next (s.raise (.accessFault (up s.pc j)))

/-- O10. A byte that OPC gives to no mnemonic decodes to nothing and raises InvalidInstruction, as invalid does (R96).
-/
def Obligations.UnassignedByteFaults : Prop :=
  (∀ (opc : List Byte) (b : Byte) (bs : List Byte), b ∉ opc → decode opc (b :: bs) = .error (.unassigned b)) ∧
    (∀ b : Byte, b ∉ Config.defaultOpc ↔ b = 0xFF) ∧
    ∀ s : State, s.status = .running → s.mapped s.pc = true → s.mem.get s.pc.toNat ∉ s.cfg.opc →
      step s = .next (s.raise .invalidInstruction) ∧ exec .invalid s = .next (s.raise .invalidInstruction)

/-- O11. Every step of a running machine gives a next state: running, halted, or the same state with only the status
changed to Faulted (60_exceptions.md R496; 60_exceptions.md R483; 20_memory.md R63). -/
def Obligations.StepTotalAndPrecise : Prop :=
  ∀ s : State, s.status = .running → ∃ t, step s = .next t ∧
    (t.status = .running ∨ t.status = .halted ∨ ∃ c, t = s.raise c)

/-- O12. A step that halts the machine executed halt, and changed the status alone (60_exceptions.md R495; 48_misc.md
R466). -/
def Obligations.HaltedOnlyByHalt : Prop :=
  ∀ s t : State, s.status = .running → step s = .next t → t.status = .halted →
    fetchInstr s = .ok .halt ∧ t = s.halt

/-! ## What every step keeps (10_state.md, 20_memory.md) -/

/-- O13. Every step keeps memory in its canonical form and the configuration inside its ranges (20_memory.md R50;
10_state.md R32; 60_exceptions.md R497). -/
def Obligations.StepKeepsInv : Prop :=
  ∀ s t : State, Inv s → step s = .next t → Inv t

/-- O14. Launch and reset: running, every register as given, the invariant holds (reset's own values: logs 1 to 4)
(10_state.md R35; 70_reset_and_hazards.md R520; 60_exceptions.md R497). -/
def Obligations.LaunchHasInv : Prop :=
  (∀ (cfg : Platform) (image : Memory) (pc sbp sfp sp slp : Addr), cfg.wf = true → image.wf = true →
      Inv (State.launch cfg image pc sbp sfp sp slp) ∧
      State.launch cfg image pc sbp sfp sp slp = ⟨pc, sbp, sfp, sp, slp, image, .running, cfg⟩) ∧
    Inv State.reset ∧ State.reset.status = .running

/-- O15. SBP, SLP, SFP and SP change only by the instructions that the access summary names; the configuration never
(10_state.md R25 to R27; 10_state.md R30; 60_exceptions.md R497). -/
def Obligations.RegistersChangeOnlyByTheirWriters : Prop :=
  ∀ (i : Instr) (s t : State), exec i s = .next t →
    t.cfg = s.cfg ∧
    ((∀ v, i ≠ .setsbp v) → t.sbp = s.sbp) ∧
    ((∀ v, i ≠ .setslp v) → t.slp = s.slp) ∧
    ((∀ v, i ≠ .setsfp v) → (∀ v, i ≠ .call v) → i ≠ .calls → i ≠ .ret → t.sfp = s.sfp) ∧
    (i.stackUse s = none → i ≠ .ret → (∀ v, i ≠ .setsp v) → t.sp = s.sp)

/-- O16. No step writes a byte of the protected window SFP to SFP + 15 (20_memory.md R60; 20_memory.md R58). -/
def Obligations.WindowNeverWritten : Prop :=
  ∀ s t : State, step s = .next t → ∀ x : Addr, Within s.sfp 16 x → t.mem.get x.toNat = s.mem.get x.toNat

/-- O17. No instruction but ret depends on the bytes of the protected window (20_memory.md R60; 10_state.md R29;
20_memory.md R59). -/
def Obligations.WindowNeverRead : Prop :=
  ∀ (i : Instr) (s s' : State), i ≠ .ret → SameOutside s.inWindow s s' →
    ∃ t t', exec i s = .next t ∧ exec i s' = .next t' ∧ SameOutside s.inWindow t t'

/-- O18. No step writes a byte at an address that is not mapped (20_memory.md R55; 20_memory.md R58). -/
def Obligations.UnmappedNeverWritten : Prop :=
  ∀ s t : State, step s = .next t → ∀ x : Addr, s.mapped x = false → t.mem.get x.toNat = s.mem.get x.toNat

/-! ## The stack (20_memory.md R61, R62) -/

/-- O19. Every instruction with stack operands or results raises StackUnderflow, then StackOverflow, by its StackCheck
before anything else (20_memory.md R61; 60_exceptions.md R485). -/
def Obligations.StackCheckFaults : Prop :=
  ∀ (i : Instr) (s : State) (nIn nOut : Nat), i.stackUse s = some (nIn, nOut) →
    (s.sbp.toNat < s.sp.toNat + nIn → exec i s = .next (s.raise .stackUnderflow)) ∧
    (s.sp.toNat + nIn ≤ s.sbp.toNat → s.sp.toNat + nIn < s.slp.toNat + nOut →
      exec i s = .next (s.raise .stackOverflow))

/-- O20. An instruction that passes its StackCheck leaves SP = SP + in - out with SLP <= SP <= SBP (20_memory.md R61).
-/
def Obligations.StackStaysInBounds : Prop :=
  ∀ (i : Instr) (s t : State) (nIn nOut : Nat), s.status = .running → i.stackUse s = some (nIn, nOut) →
    exec i s = .next t → t.status = .running →
      t.sp.toNat + nOut = s.sp.toNat + nIn ∧ StackInBounds t

/-- O21. Operand and result bytes of a checked stack instruction lie in SLP to SBP - 1 (20_memory.md R61). -/
def Obligations.StackBytesInBounds : Prop :=
  ∀ (s : State) (nIn nOut : Nat) (x : Addr), StackOk s nIn nOut → s.slp.toNat ≤ s.sp.toNat →
    (Within s.sp nIn x ∨ Within (resultAddr s nIn nOut) nOut x) → s.slp.toNat ≤ x.toNat ∧ x.toNat < s.sbp.toNat

/-! ## Memory (20_memory.md) -/

/-- O22. Storing and reading are little-endian: byte i at (addr + i) mod 2^64, and narrower accesses see exactly those
bytes (R52). -/
def Obligations.LittleEndianBytes : Prop :=
  (∀ (m : Memory) (a : Addr) (n i : Nat), n ∈ [1, 2, 4, 8] → i < n →
      m.loadLE a n / 256 ^ i % 256 = (m.get (up a i).toNat).toNat ∧ m.loadLE a n < 256 ^ n) ∧
    (∀ (m : Memory) (a : Addr) (n v i : Nat), n ∈ [1, 2, 4, 8] → i < n →
      ((m.storeLE a n v).get (up a i).toNat).toNat = v / 256 ^ i % 256) ∧
    ∀ (m : Memory) (a : Addr) (n v j k : Nat), n ∈ [1, 2, 4, 8] → j + k ≤ n →
      (m.storeLE a n v).loadLE (up a j) k = v / 256 ^ j % 256 ^ k

/-- O23. Storing n bytes changes no byte but those n, and keeps the canonical form (20_memory.md R58; 20_memory.md
R65). -/
def Obligations.StoreLeavesOtherBytes : Prop :=
  ∀ (m : Memory) (a : Addr) (n v : Nat), n ≤ 2 ^ 64 →
    (∀ x : Addr, ¬ Within a n x → (m.storeLE a n v).get x.toNat = m.get x.toNat) ∧
    (m.wf = true → (m.storeLE a n v).wf = true)

/-- O24. Two memories in canonical form that read the same at every address are equal (10_state.md R32). -/
def Obligations.CanonicalMemoriesAreEqual : Prop :=
  ∀ m m' : Memory, m.wf = true → m'.wf = true → (∀ x : Addr, m.get x.toNat = m'.get x.toNat) → m = m'

/-- O25. MemRead, MemWrite, RawRead and Fetch: what each answers or raises, and FrameFault before AccessFault
(20_memory.md R56 to R60; 60_exceptions.md R485). -/
def Obligations.AccessPrimitives : Prop :=
  ∀ (s : State) (m : Memory) (a : Addr) (w : Width) (v : Elem w),
    (DataOk s a w.bytes → memRead s a w = .ok (s.elem a w) ∧
      memWrite s m a w v = .ok (m.storeLE a w.bytes v.toNat)) ∧
    (∀ c, DataFault s a w.bytes c → memRead s a w = .error c ∧ memWrite s m a w v = .error c) ∧
    (MappedOk s a w.bytes → rawRead s a w = .ok (s.elem a w) ∧
      fetch s a w.bytes = .ok (s.mem.loadLE a w.bytes)) ∧
    ∀ j < w.bytes, s.mapped (up a j) = false → (∀ k < j, s.mapped (up a k) = true) →
      rawRead s a w = .error (.accessFault (up a j)) ∧ fetch s a w.bytes = .error (.accessFault (up a j))

/-! ## Push, pop, duplication, set, promotion, demotion (40, 41) -/

/-- O26. The 16 push instructions: the immediate, zero- or sign-extended, is the new top element; nothing else changes
(40_push_pop_dup_set.md R120 to R136; 20_memory.md R62). -/
def Obligations.PushResult : Prop :=
  ∀ (i : Instr) (s : State) (w : Width) (sg : Signedness) (z : Int), i.pushes = some (w, sg, z) →
    StackOk s 0 w.bytes → DataOk s (resultAddr s 0 w.bytes) w.bytes →
      ∃ t v, exec i s = .next t ∧ LeavesElem s t 0 w v i.length ∧ intVal sg v = z

/-- O27. A push whose bytes would touch the protected window or an unmapped address raises and changes nothing else
(40_push_pop_dup_set.md R121 to R136; 20_memory.md R60; 60_exceptions.md R485). -/
def Obligations.PushIntoWindowOrHoleFaults : Prop :=
  ∀ (i : Instr) (s : State) (w : Width) (sg : Signedness) (z : Int) (c : FaultCause),
    i.pushes = some (w, sg, z) → StackOk s 0 w.bytes → DataFault s (resultAddr s 0 w.bytes) w.bytes c →
      exec i s = .next (s.raise c)

/-- O28. The 4 pop instructions: SP rises, no memory is accessed, nothing else changes (40_push_pop_dup_set.md R137 to
R140; 20_memory.md R62). -/
def Obligations.PopResult : Prop :=
  ∀ (i : Instr) (s : State) (w : Width), i.pops = some w → StackOk s w.bytes 0 →
    exec i s = .next (s.put s.mem (up s.sp w.bytes) (up s.pc 1))

/-- O29. A pop of k bytes off an n-byte element leaves its n - k most significant bytes on top: a shift right, no
truncation (20_memory.md R66). -/
def Obligations.PopLeavesUpperBytes : Prop :=
  ∀ (i : Instr) (s : State) (w : Width) (n : Nat), i.pops = some w → StackOk s w.bytes 0 → w.bytes ≤ n →
    ∃ t, exec i s = .next t ∧ t.mem.loadLE t.sp (n - w.bytes) = s.mem.loadLE s.sp n / 256 ^ w.bytes

/-- O30. The 4 dup instructions push the top element again (40_push_pop_dup_set.md R120; 40_push_pop_dup_set.md R141
to R144). -/
def Obligations.DupResult : Prop :=
  ∀ (i : Instr) (s : State) (w : Width), i.dups = some w → StackOk s w.bytes (2 * w.bytes) →
    DataOk s s.sp w.bytes → DataOk s (resultAddr s 0 w.bytes) w.bytes →
      ∃ t, exec i s = .next t ∧ LeavesElem s t 0 w (s.elem s.sp w) 1

/-- O31. The 4 set instructions replace the top two elements by the top one (40_push_pop_dup_set.md R120;
40_push_pop_dup_set.md R145 to R148). -/
def Obligations.SetResult : Prop :=
  ∀ (i : Instr) (s : State) (w : Width), i.setsBelow = some w → StackOk s (2 * w.bytes) w.bytes →
    DataOk s s.sp w.bytes → DataOk s (resultAddr s (2 * w.bytes) w.bytes) w.bytes →
      ∃ t, exec i s = .next t ∧ LeavesElem s t (2 * w.bytes) w (s.elem s.sp w) 1

/-- O32. The 12 promotions keep the unsigned or signed value, the 3 demotions keep the low bits
(41_promotion_demotion.md R160 to R175). -/
def Obligations.ConversionResult : Prop :=
  ∀ (i : Instr) (s : State) (wa wr : Width) (k : Conversion), i.converts = some (wa, wr, k) → UnaryOk s wa wr →
    ∃ t v, exec i s = .next t ∧ LeavesElem s t wa.bytes wr v 1 ∧ k.Holds (s.elem s.sp wa) v

/-! ## Integer arithmetic (42) -/

/-- O33. The 12 add, sub and subr instructions: a + b, a - b, b - a, modulo 2^N (42_integer_arithmetic.md R180;
42_integer_arithmetic.md R185 to R196). -/
def Obligations.AddSubResult : Prop :=
  ∀ (i : Instr) (s : State) (w : Width) (op : Additive), i.adds = some (w, op) → BinaryOk s w w w →
    ∃ t v, exec i s = .next t ∧ LeavesElem s t (w.bytes + w.bytes) w v 1 ∧
      (v.toNat : Int) = op.value (s.beneath w w).toNat (s.elem s.sp w).toNat % 2 ^ w.bits

/-- O34. The 8 multiplications: the product of the unsigned or signed integers, modulo 2^N (42_integer_arithmetic.md
R181; 42_integer_arithmetic.md R197 to R204). -/
def Obligations.MulResult : Prop :=
  ∀ (i : Instr) (s : State) (w : Width) (sg : Signedness), i.muls = some (w, sg) → BinaryOk s w w w →
    ∃ t v, exec i s = .next t ∧ LeavesElem s t (w.bytes + w.bytes) w v 1 ∧
      (v.toNat : Int) = intVal sg (s.beneath w w) * intVal sg (s.elem s.sp w) % 2 ^ w.bits

/-- O35. mulu and muli of one width do the same to every state (42_integer_arithmetic.md R181). -/
def Obligations.MulSignednessImmaterial : Prop :=
  ∀ (i j : Instr) (s : State) (w : Width), i.muls = some (w, .unsigned) → j.muls = some (w, .signed) →
    exec i s = exec j s

/-- O36. The 32 divisions and remainders, divisor not zero and quotient representable: rounding toward zero, remainder
with the sign of the dividend (42_integer_arithmetic.md R182; 42_integer_arithmetic.md R205 to R236). -/
def Obligations.DivisionResult : Prop :=
  ∀ (i : Instr) (s : State) (w : Width) (sg : Signedness) (p : DivPart) (o : DivOrder),
    i.divides = some (w, sg, p, o) → BinaryOk s w w w →
    ∀ x y : Elem w, x = o.dividend (s.beneath w w) (s.elem s.sp w) → y = o.divisor (s.beneath w w) (s.elem s.sp w) →
    y ≠ 0 → (sg = .signed → ¬ (x.toInt = -2 ^ (w.bits - 1) ∧ y.toInt = -1)) →
      ∃ t v q r, exec i s = .next t ∧ LeavesElem s t (w.bytes + w.bytes) w v 1 ∧
        IsDivision sg (intVal sg x) (intVal sg y) q r ∧
        intVal sg v = match p with
          | .quotient => q
          | .remainder => r

/-- O37. All 32 divisions and remainders raise DivideByZero when the divisor is zero (R183). -/
def Obligations.DivideByZeroFaults : Prop :=
  ∀ (i : Instr) (s : State) (w : Width) (sg : Signedness) (p : DivPart) (o : DivOrder),
    i.divides = some (w, sg, p, o) → OperandsOk s w w w → o.divisor (s.beneath w w) (s.elem s.sp w) = 0 →
      exec i s = .next (s.raise .divideByZero)

/-- O38. The 16 signed divisions of MIN by -1 raise DivideOverflow, or under wrap leave MIN or 0 (R184). -/
def Obligations.DivideOverflowFaultsOrWraps : Prop :=
  Config.defaultPlatform.divOverflow = .fault ∧
    ∀ (i : Instr) (s : State) (w : Width) (p : DivPart) (o : DivOrder), i.divides = some (w, .signed, p, o) →
      (o.dividend (s.beneath w w) (s.elem s.sp w)).toInt = -2 ^ (w.bits - 1) →
      (o.divisor (s.beneath w w) (s.elem s.sp w)).toInt = -1 →
        (s.cfg.divOverflow = .fault → OperandsOk s w w w → exec i s = .next (s.raise .divideOverflow)) ∧
        (s.cfg.divOverflow = .wrap → BinaryOk s w w w →
          ∃ t v, exec i s = .next t ∧ LeavesElem s t (w.bytes + w.bytes) w v 1 ∧
            v.toInt = match p with
              | .quotient => -2 ^ (w.bits - 1)
              | .remainder => 0)

/-- O39. Of one state, quotient times divisor plus remainder is the dividend, modulo 2^N, wherever both instructions
complete (42_integer_arithmetic.md R182; 42_integer_arithmetic.md R184). -/
def Obligations.QuotientAndRemainderGiveDividend : Prop :=
  ∀ (i j : Instr) (s t u : State) (w : Width) (sg : Signedness) (o : DivOrder),
    i.divides = some (w, sg, .quotient, o) → j.divides = some (w, sg, .remainder, o) → s.status = .running →
    exec i s = .next t → t.status = .running → exec j s = .next u → u.status = .running →
      t.elem t.sp w * o.divisor (s.beneath w w) (s.elem s.sp w) + u.elem u.sp w =
        o.dividend (s.beneath w w) (s.elem s.sp w)

/-! ## Shifts, bitwise, Boolean, comparison (43, 44) -/

/-- O40. The 12 shifts by a count below the width: left modulo 2^N, logical right, arithmetic right
(43_shift_bitwise.md R250 to R252; 43_shift_bitwise.md R254 to R265). -/
def Obligations.ShiftInRangeResult : Prop :=
  ∀ (i : Instr) (s : State) (w : Width) (op : ShiftOp), i.shifts = some (w, op) → BinaryOk s w .w8 w →
    (s.elem s.sp .w8).toNat < w.bits →
      ∃ t v, exec i s = .next t ∧ LeavesElem s t (w.bytes + 1) w v 1 ∧
        op.Holds (s.beneath w .w8) (s.elem s.sp .w8).toNat v

/-- O41. The 12 shifts by the width or more complete with the free value NUM.shift_over of the operation, N, a and c
(43_shift_bitwise.md R251). -/
def Obligations.ShiftOverResult : Prop :=
  ∀ (i : Instr) (s : State) (w : Width) (op : ShiftOp), i.shifts = some (w, op) → BinaryOk s w .w8 w →
    w.bits ≤ (s.elem s.sp .w8).toNat →
      ∃ t, exec i s = .next t ∧ LeavesElem s t (w.bytes + 1) w
        (Config.shiftOver op w.bits (s.beneath w .w8) (s.elem s.sp .w8).toNat) 1

/-- O42. The 12 band, bor and bxor and the 4 binv instructions, bit by bit (43_shift_bitwise.md R253;
43_shift_bitwise.md R266 to R281). -/
def Obligations.BitwiseResult : Prop :=
  (∀ (i : Instr) (s : State) (w : Width) (op : BitOp), i.bitwise = some (w, op) → BinaryOk s w w w →
      ∃ t v, exec i s = .next t ∧ LeavesElem s t (w.bytes + w.bytes) w v 1 ∧
        ∀ k < w.bits, v.getLsbD k = op.value ((s.beneath w w).getLsbD k) ((s.elem s.sp w).getLsbD k)) ∧
    ∀ (i : Instr) (s : State) (w : Width), i.inverts = some w → UnaryOk s w w →
      ∃ t v, exec i s = .next t ∧ LeavesElem s t w.bytes w v 1 ∧
        ∀ k < w.bits, v.getLsbD k = !(s.elem s.sp w).getLsbD k

/-- O43. The 8 land and lor and the 4 linv instructions leave 1 or 0, in the width BOOLW (44_boolean_comparison.md
R290 to R303). -/
def Obligations.BooleanResult : Prop :=
  (∀ (i : Instr) (s : State) (w : Width) (r : Relation), i.connects = some (w, r) →
      BinaryOk s w w (boolWidth s w) →
      ∃ t v, exec i s = .next t ∧ LeavesElem s t (w.bytes + w.bytes) (boolWidth s w) v 1 ∧
        (r.Holds (s.beneath w w).toNat (s.elem s.sp w).toNat → v.toNat = 1) ∧
        (¬ r.Holds (s.beneath w w).toNat (s.elem s.sp w).toNat → v.toNat = 0)) ∧
    ∀ (i : Instr) (s : State) (w : Width), i.negates = some w → UnaryOk s w (boolWidth s w) →
      ∃ t v, exec i s = .next t ∧ LeavesElem s t w.bytes (boolWidth s w) v 1 ∧
        (s.elem s.sp w = 0 → v.toNat = 1) ∧ (s.elem s.sp w ≠ 0 → v.toNat = 0)

/-- O44. The 40 comparisons leave 1 or 0, in the width BOOLW, a on the left and b on the right
(44_boolean_comparison.md R290, R291; 44_boolean_comparison.md R304 to R343). -/
def Obligations.ComparisonResult : Prop :=
  ∀ (i : Instr) (s : State) (w : Width) (r : Relation) (sg : Signedness), i.compares = some (w, r, sg) →
    BinaryOk s w w (boolWidth s w) →
      ∃ t v, exec i s = .next t ∧ LeavesElem s t (w.bytes + w.bytes) (boolWidth s w) v 1 ∧
        (r.Holds (intVal sg (s.beneath w w)) (intVal sg (s.elem s.sp w)) → v.toNat = 1) ∧
        (¬ r.Holds (intVal sg (s.beneath w w)) (intVal sg (s.elem s.sp w)) → v.toNat = 0)

/-- O45. BOOLW(N) is N or 8, as the configuration says (44_boolean_comparison.md R290). -/
def Obligations.BooleanWidthParameter : Prop :=
  ∀ (s : State) (w : Width), (s.cfg.boolw = .operand → boolWidth s w = w) ∧
    (s.cfg.boolw = .byte → boolWidth s w = .w8) ∧ boolWidth s .w8 = .w8

/-! ## Calls, jumps, branches (45, 46) -/

/-- O46. call pushes PSFP and RETA = PC + 9, makes SP the new SFP, and goes to its immediate (45_call_return.md R350,
R351). -/
def Obligations.CallResult : Prop :=
  ∀ (imm : BitVec 64) (s : State), StackOk s 0 16 → DataOk s (down s.sp 8) 8 → DataOk s (down s.sp 16) 8 →
    ∃ t, exec (.call imm) s = .next t ∧ EntersFrame s t (down s.sp 16) (up s.pc 9) imm

/-- O47. calls pops the target, pushes PSFP and RETA = PC + 1, makes SP the new SFP, and goes to the target
(45_call_return.md R350, R352). -/
def Obligations.CallsResult : Prop :=
  ∀ s : State, StackOk s 8 16 → DataOk s s.sp 8 → DataOk s (down s.sp 8) 8 →
    ∃ t, exec .calls s = .next t ∧ EntersFrame s t (down s.sp 8) (up s.pc 1) (s.elem s.sp .w64)

/-- O48. ret restores PC, SFP and SP from the frame at SFP, or raises AccessFault, StackUnderflow or StackOverflow in
that order (45_call_return.md R353; 60_exceptions.md R485). -/
def Obligations.RetResultAndFaults : Prop :=
  ∀ s : State,
    (RetOk s → exec .ret s =
      .next (s.leaveFrame (up s.sfp 16) (s.elem (up s.sfp 8) .w64) (s.elem s.sfp .w64))) ∧
    (∀ j < 16, s.mapped (up s.sfp j) = false → (∀ k < j, s.mapped (up s.sfp k) = true) →
      exec .ret s = .next (s.raise (.accessFault (up s.sfp j)))) ∧
    (MappedOk s s.sfp 16 → s.sbp.toNat < s.sfp.toNat + 16 → exec .ret s = .next (s.raise .stackUnderflow)) ∧
    (MappedOk s s.sfp 16 → s.sfp.toNat + 16 ≤ s.sbp.toNat → s.sfp.toNat + 16 < s.slp.toNat →
      exec .ret s = .next (s.raise .stackOverflow))

/-- O49. A callee that still has its frame's control data returns to the instruction after the call, with SFP restored
and SP above the control data (45_call_return.md R354; 45_call_return.md R351 to R353). -/
def Obligations.CallThenReturn : Prop :=
  ∀ (i : Instr) (s t u : State), (i = .calls ∨ ∃ imm, i = .call imm) → s.status = .running →
    exec i s = .next t → t.status = .running →
    u.sfp = t.sfp → u.sbp = t.sbp → u.slp = t.slp → u.cfg = t.cfg →
    u.elem t.sfp .w64 = t.elem t.sfp .w64 → u.elem (up t.sfp 8) .w64 = t.elem (up t.sfp 8) .w64 →
      exec .ret u = .next (u.leaveFrame (up t.sfp 16) s.sfp (up s.pc i.length))

/-- O50. jmp and the 3 rjmpi instructions: PC becomes the immediate, or PC plus the signed immediate modulo 2^64
(46_jump_branch.md R370, R371; 46_jump_branch.md R373 to R375; 46_jump_branch.md R392). -/
def Obligations.JumpResult : Prop :=
  ∀ (i : Instr) (s : State) (target : Addr), i.jumps s.pc = some target → exec i s = .next (s.setPc target)

/-- O51. jmps pops the target and goes there (46_jump_branch.md R372). -/
def Obligations.JmpsResult : Prop :=
  ∀ s : State, StackOk s 8 0 → DataOk s s.sp 8 →
    exec .jmps s = .next (s.put s.mem (up s.sp 8) (s.elem s.sp .w64))

/-- O52. The 16 brz and rbrz instructions pop an element and go to the target when it is zero, else to the next
instruction (46_jump_branch.md R370; 46_jump_branch.md R376 to R391). -/
def Obligations.BranchResult : Prop :=
  ∀ (i : Instr) (s : State) (w : Width) (target : Addr), i.branches s.pc = some (w, target) →
    StackOk s w.bytes 0 → DataOk s s.sp w.bytes →
      ((s.elem s.sp w).toNat = 0 → exec i s = .next (s.put s.mem (up s.sp w.bytes) target)) ∧
      ((s.elem s.sp w).toNat ≠ 0 → exec i s = .next (s.put s.mem (up s.sp w.bytes) (up s.pc i.length)))

/-! ## Loads and stores (47) -/

/-- O53. The 16 loads leave the element at the effective address on the stack, above the address or in its place
(47_memory_ops.md R400 to R417). -/
def Obligations.LoadResult : Prop :=
  (∀ (s : State) (a : Addr), effAddr s .absolute a = a ∧ effAddr s .sfp a = s.sfp + a) ∧
    ∀ (i : Instr) (s : State) (w : Width) (mode : AddrMode) (form : LoadForm), i.loads = some (w, mode, form) →
      LoadOk s w mode form.taken (8 - form.taken + w.bytes) →
        ∃ t, exec i s = .next t ∧
          LeavesElem s t form.taken w (s.elem (effAddr s mode (s.elem s.sp .w64)) w) 1

/-- O54. The 16 stores with the value on top write it at the effective address, and the pop forms pop it
(47_memory_ops.md R400, R401; 47_memory_ops.md R418 to R433). -/
def Obligations.StoreResult : Prop :=
  ∀ (i : Instr) (s : State) (w : Width) (mode : AddrMode) (nPop : Nat), i.stores = some (w, mode, nPop) →
    StoreOk s w .w64 nPop (storeTopAddr s w mode) w →
      ∃ t, exec i s = .next t ∧ StoresElem s t (storeTopAddr s w mode) w (s.elem s.sp w) nPop

/-- O55. The 16 reversed stores write the element beneath the address, and the pop forms pop the address
(47_memory_ops.md R400, R401; 47_memory_ops.md R434 to R449). -/
def Obligations.StoreReversedResult : Prop :=
  ∀ (i : Instr) (s : State) (w : Width) (mode : AddrMode) (nPop : Nat), i.storesReversed = some (w, mode, nPop) →
    StoreOk s .w64 w nPop (storeBeneathAddr s mode) w →
      ∃ t, exec i s = .next t ∧ StoresElem s t (storeBeneathAddr s mode) w (s.elem (up s.sp 8) w) nPop

/-- O56. A load or store whose effective address touches the window or an unmapped address raises FrameFault or
AccessFault, and stores nothing (47_memory_ops.md R401; 20_memory.md R57, R58, R60; 60_exceptions.md R485). -/
def Obligations.LoadStoreFaults : Prop :=
  ∀ (i : Instr) (s : State) (w : Width) (mode : AddrMode) (c : FaultCause),
    (∀ form : LoadForm, i.loads = some (w, mode, form) → StackOk s 8 (8 - form.taken + w.bytes) → DataOk s s.sp 8 →
      DataFault s (effAddr s mode (s.elem s.sp .w64)) w.bytes c → exec i s = .next (s.raise c)) ∧
    (∀ nPop : Nat, i.stores = some (w, mode, nPop) → StackOk s (8 + w.bytes) (8 + w.bytes - nPop) →
      DataOk s s.sp w.bytes → DataOk s (up s.sp w.bytes) 8 → DataFault s (storeTopAddr s w mode) w.bytes c →
      exec i s = .next (s.raise c)) ∧
    ∀ nPop : Nat, i.storesReversed = some (w, mode, nPop) → StackOk s (8 + w.bytes) (8 + w.bytes - nPop) →
      DataOk s s.sp 8 → DataOk s (up s.sp 8) w.bytes → DataFault s (storeBeneathAddr s mode) w.bytes c →
      exec i s = .next (s.raise c)

/-- O57. A reversed store that keeps its operands, then the load of the same width and mode, reads the stored value; a
store onto its own value changes no byte (47_memory_ops.md R401; 20_memory.md R65, R68; 47_memory_ops.md R418 to
R449). -/
def Obligations.StoreThenLoadReadsValue : Prop :=
  (∀ (i j : Instr) (s t : State) (w : Width) (mode : AddrMode), i.storesReversed = some (w, mode, 0) →
      j.loads = some (w, mode, .keep) → s.status = .running → exec i s = .next t → t.status = .running →
      (∀ x, Within (storeBeneathAddr s mode) w.bytes x → ¬ Within s.sp 8 x) → LoadOk t w mode 0 (8 + w.bytes) →
        ∃ u, exec j t = .next u ∧ u.elem u.sp w = s.elem (up s.sp 8) w) ∧
    ∀ (i : Instr) (s t : State) (w : Width) (mode : AddrMode) (nPop : Nat), i.stores = some (w, mode, nPop) →
      storeTopAddr s w mode = s.sp → exec i s = .next t → ∀ x : Addr, t.mem.get x.toNat = s.mem.get x.toNat

/-! ## Miscellaneous (48, 70) -/

/-- O58. setsbp, setsfp, setsp and setslp write their register with the immediate, check nothing and change nothing
else (48_misc.md R460 to R463). -/
def Obligations.SetRegisterResult : Prop :=
  ∀ (v : BitVec 64) (s : State),
    exec (.setsbp v) s = .next { s with sbp := v, pc := up s.pc 9 } ∧
    exec (.setsfp v) s = .next { s with sfp := v, pc := up s.pc 9 } ∧
    exec (.setsp v) s = .next { s with sp := v, pc := up s.pc 9 } ∧
    exec (.setslp v) s = .next { s with slp := v, pc := up s.pc 9 }

/-- O59. nop moves PC by 1, halt sets the status Halted with PC as it was, ext and invalid raise InvalidInstruction
(48_misc.md R464 to R467; 30_encoding.md R97). -/
def Obligations.NopHaltExtInvalidResult : Prop :=
  ∀ s : State, exec .nop s = .next { s with pc := up s.pc 1 } ∧ exec .halt s = .next { s with status := .halted } ∧
    exec .ext s = .next { s with status := .faulted .invalidInstruction } ∧
    exec .invalid s = .next { s with status := .faulted .invalidInstruction }

/-- O60. The four set instructions of a boot sequence, in any order, give the stack its registers whatever they held
(70_reset_and_hazards.md R521; 48_misc.md R460 to R463). -/
def Obligations.BootSequenceInAnyOrder : Prop :=
  ∀ (s : State) (b l : BitVec 64) (is : List Instr), is.Perm [.setsbp b, .setslp l, .setsp b, .setsfp b] →
    execAll is s = some { s with sbp := b, slp := l, sp := b, sfp := b, pc := up s.pc 36 }
end

