-- ==== Sys2Proof/Laws/State.lean ====
section
/-! SUPPORT. What each field reads as after each named update of the state, and what the updates leave of the
predicates over the state. -/

namespace Sys2Proof.Machine

variable (s : State) (m : Memory) (sp sfp pc v : Addr) (c : FaultCause)

/-! ## put -/

@[simp] theorem State.put_pc : (s.put m sp pc).pc = pc := rfl
@[simp] theorem State.put_sbp : (s.put m sp pc).sbp = s.sbp := rfl
@[simp] theorem State.put_sfp : (s.put m sp pc).sfp = s.sfp := rfl
@[simp] theorem State.put_sp : (s.put m sp pc).sp = sp := rfl
@[simp] theorem State.put_slp : (s.put m sp pc).slp = s.slp := rfl
@[simp] theorem State.put_mem : (s.put m sp pc).mem = m := rfl
@[simp] theorem State.put_status : (s.put m sp pc).status = s.status := rfl
@[simp] theorem State.put_cfg : (s.put m sp pc).cfg = s.cfg := rfl
@[simp] theorem State.put_mapped : (s.put m sp pc).mapped = s.mapped := rfl
@[simp] theorem State.put_inWindow : (s.put m sp pc).inWindow = s.inWindow := rfl

/-! ## setPc -/

@[simp] theorem State.setPc_pc : (s.setPc pc).pc = pc := rfl
@[simp] theorem State.setPc_sbp : (s.setPc pc).sbp = s.sbp := rfl
@[simp] theorem State.setPc_sfp : (s.setPc pc).sfp = s.sfp := rfl
@[simp] theorem State.setPc_sp : (s.setPc pc).sp = s.sp := rfl
@[simp] theorem State.setPc_slp : (s.setPc pc).slp = s.slp := rfl
@[simp] theorem State.setPc_mem : (s.setPc pc).mem = s.mem := rfl
@[simp] theorem State.setPc_status : (s.setPc pc).status = s.status := rfl
@[simp] theorem State.setPc_cfg : (s.setPc pc).cfg = s.cfg := rfl
@[simp] theorem State.setPc_mapped : (s.setPc pc).mapped = s.mapped := rfl
@[simp] theorem State.setPc_inWindow : (s.setPc pc).inWindow = s.inWindow := rfl
@[simp] theorem State.setPc_elem : (s.setPc pc).elem = s.elem := rfl

/-! ## enterFrame -/

@[simp] theorem State.enterFrame_pc : (s.enterFrame m sp pc).pc = pc := rfl
@[simp] theorem State.enterFrame_sbp : (s.enterFrame m sp pc).sbp = s.sbp := rfl
@[simp] theorem State.enterFrame_sfp : (s.enterFrame m sp pc).sfp = sp := rfl
@[simp] theorem State.enterFrame_sp : (s.enterFrame m sp pc).sp = sp := rfl
@[simp] theorem State.enterFrame_slp : (s.enterFrame m sp pc).slp = s.slp := rfl
@[simp] theorem State.enterFrame_mem : (s.enterFrame m sp pc).mem = m := rfl
@[simp] theorem State.enterFrame_status : (s.enterFrame m sp pc).status = s.status := rfl
@[simp] theorem State.enterFrame_cfg : (s.enterFrame m sp pc).cfg = s.cfg := rfl
@[simp] theorem State.enterFrame_mapped : (s.enterFrame m sp pc).mapped = s.mapped := rfl

/-! ## leaveFrame -/

@[simp] theorem State.leaveFrame_pc : (s.leaveFrame sp sfp pc).pc = pc := rfl
@[simp] theorem State.leaveFrame_sbp : (s.leaveFrame sp sfp pc).sbp = s.sbp := rfl
@[simp] theorem State.leaveFrame_sfp : (s.leaveFrame sp sfp pc).sfp = sfp := rfl
@[simp] theorem State.leaveFrame_sp : (s.leaveFrame sp sfp pc).sp = sp := rfl
@[simp] theorem State.leaveFrame_slp : (s.leaveFrame sp sfp pc).slp = s.slp := rfl
@[simp] theorem State.leaveFrame_mem : (s.leaveFrame sp sfp pc).mem = s.mem := rfl
@[simp] theorem State.leaveFrame_status : (s.leaveFrame sp sfp pc).status = s.status := rfl
@[simp] theorem State.leaveFrame_cfg : (s.leaveFrame sp sfp pc).cfg = s.cfg := rfl
@[simp] theorem State.leaveFrame_mapped : (s.leaveFrame sp sfp pc).mapped = s.mapped := rfl
@[simp] theorem State.leaveFrame_elem : (s.leaveFrame sp sfp pc).elem = s.elem := rfl

/-! ## setSbp -/

@[simp] theorem State.setSbp_pc : (s.setSbp v pc).pc = pc := rfl
@[simp] theorem State.setSbp_sbp : (s.setSbp v pc).sbp = v := rfl
@[simp] theorem State.setSbp_sfp : (s.setSbp v pc).sfp = s.sfp := rfl
@[simp] theorem State.setSbp_sp : (s.setSbp v pc).sp = s.sp := rfl
@[simp] theorem State.setSbp_slp : (s.setSbp v pc).slp = s.slp := rfl
@[simp] theorem State.setSbp_mem : (s.setSbp v pc).mem = s.mem := rfl
@[simp] theorem State.setSbp_status : (s.setSbp v pc).status = s.status := rfl
@[simp] theorem State.setSbp_cfg : (s.setSbp v pc).cfg = s.cfg := rfl
@[simp] theorem State.setSbp_mapped : (s.setSbp v pc).mapped = s.mapped := rfl
@[simp] theorem State.setSbp_inWindow : (s.setSbp v pc).inWindow = s.inWindow := rfl
@[simp] theorem State.setSbp_elem : (s.setSbp v pc).elem = s.elem := rfl

/-! ## setSfp -/

@[simp] theorem State.setSfp_pc : (s.setSfp v pc).pc = pc := rfl
@[simp] theorem State.setSfp_sbp : (s.setSfp v pc).sbp = s.sbp := rfl
@[simp] theorem State.setSfp_sfp : (s.setSfp v pc).sfp = v := rfl
@[simp] theorem State.setSfp_sp : (s.setSfp v pc).sp = s.sp := rfl
@[simp] theorem State.setSfp_slp : (s.setSfp v pc).slp = s.slp := rfl
@[simp] theorem State.setSfp_mem : (s.setSfp v pc).mem = s.mem := rfl
@[simp] theorem State.setSfp_status : (s.setSfp v pc).status = s.status := rfl
@[simp] theorem State.setSfp_cfg : (s.setSfp v pc).cfg = s.cfg := rfl
@[simp] theorem State.setSfp_mapped : (s.setSfp v pc).mapped = s.mapped := rfl
@[simp] theorem State.setSfp_elem : (s.setSfp v pc).elem = s.elem := rfl

/-! ## setSp -/

@[simp] theorem State.setSp_pc : (s.setSp v pc).pc = pc := rfl
@[simp] theorem State.setSp_sbp : (s.setSp v pc).sbp = s.sbp := rfl
@[simp] theorem State.setSp_sfp : (s.setSp v pc).sfp = s.sfp := rfl
@[simp] theorem State.setSp_sp : (s.setSp v pc).sp = v := rfl
@[simp] theorem State.setSp_slp : (s.setSp v pc).slp = s.slp := rfl
@[simp] theorem State.setSp_mem : (s.setSp v pc).mem = s.mem := rfl
@[simp] theorem State.setSp_status : (s.setSp v pc).status = s.status := rfl
@[simp] theorem State.setSp_cfg : (s.setSp v pc).cfg = s.cfg := rfl
@[simp] theorem State.setSp_mapped : (s.setSp v pc).mapped = s.mapped := rfl
@[simp] theorem State.setSp_inWindow : (s.setSp v pc).inWindow = s.inWindow := rfl
@[simp] theorem State.setSp_elem : (s.setSp v pc).elem = s.elem := rfl

/-! ## setSlp -/

@[simp] theorem State.setSlp_pc : (s.setSlp v pc).pc = pc := rfl
@[simp] theorem State.setSlp_sbp : (s.setSlp v pc).sbp = s.sbp := rfl
@[simp] theorem State.setSlp_sfp : (s.setSlp v pc).sfp = s.sfp := rfl
@[simp] theorem State.setSlp_sp : (s.setSlp v pc).sp = s.sp := rfl
@[simp] theorem State.setSlp_slp : (s.setSlp v pc).slp = v := rfl
@[simp] theorem State.setSlp_mem : (s.setSlp v pc).mem = s.mem := rfl
@[simp] theorem State.setSlp_status : (s.setSlp v pc).status = s.status := rfl
@[simp] theorem State.setSlp_cfg : (s.setSlp v pc).cfg = s.cfg := rfl
@[simp] theorem State.setSlp_mapped : (s.setSlp v pc).mapped = s.mapped := rfl
@[simp] theorem State.setSlp_inWindow : (s.setSlp v pc).inWindow = s.inWindow := rfl
@[simp] theorem State.setSlp_elem : (s.setSlp v pc).elem = s.elem := rfl

/-! ## halt -/

@[simp] theorem State.halt_pc : s.halt.pc = s.pc := rfl
@[simp] theorem State.halt_sbp : s.halt.sbp = s.sbp := rfl
@[simp] theorem State.halt_sfp : s.halt.sfp = s.sfp := rfl
@[simp] theorem State.halt_sp : s.halt.sp = s.sp := rfl
@[simp] theorem State.halt_slp : s.halt.slp = s.slp := rfl
@[simp] theorem State.halt_mem : s.halt.mem = s.mem := rfl
@[simp] theorem State.halt_status : s.halt.status = .halted := rfl
@[simp] theorem State.halt_cfg : s.halt.cfg = s.cfg := rfl
@[simp] theorem State.halt_mapped : (s.halt).mapped = s.mapped := rfl
@[simp] theorem State.halt_inWindow : (s.halt).inWindow = s.inWindow := rfl
@[simp] theorem State.halt_elem : (s.halt).elem = s.elem := rfl

/-! ## raise -/

@[simp] theorem State.raise_pc : (s.raise c).pc = s.pc := rfl
@[simp] theorem State.raise_sbp : (s.raise c).sbp = s.sbp := rfl
@[simp] theorem State.raise_sfp : (s.raise c).sfp = s.sfp := rfl
@[simp] theorem State.raise_sp : (s.raise c).sp = s.sp := rfl
@[simp] theorem State.raise_slp : (s.raise c).slp = s.slp := rfl
@[simp] theorem State.raise_mem : (s.raise c).mem = s.mem := rfl
@[simp] theorem State.raise_status : (s.raise c).status = .faulted c := rfl
@[simp] theorem State.raise_cfg : (s.raise c).cfg = s.cfg := rfl
@[simp] theorem State.raise_mapped : (s.raise c).mapped = s.mapped := rfl
@[simp] theorem State.raise_inWindow : (s.raise c).inWindow = s.inWindow := rfl
@[simp] theorem State.raise_elem : (s.raise c).elem = s.elem := rfl

end Sys2Proof.Machine
end

