-- ==== Sys2Proof/Laws/Memory.lean ====
section
/-! SUPPORT. The laws of memory: read after write, the canonical form, and little-endian numbers (spec 20_memory.md R52). -/

namespace Sys2Proof.Machine

/-! ## One byte -/

@[simp] theorem Memory.get_nil (x : Nat) : Memory.get [] x = Config.unlistedByte := rfl

theorem Memory.get_cons (k : Nat) (b : Byte) (m : Memory) (x : Nat) :
    Memory.get ((k, b) :: m) x = if x = k then b else Memory.get m x := rfl

theorem Memory.get_erase (m : Memory) (a x : Nat) :
    (m.erase a).get x = if x = a then Config.unlistedByte else m.get x := by
  induction m with
  | nil => simp [Memory.erase]
  | cons c m ih =>
    obtain ⟨k, b⟩ := c
    simp only [Memory.erase] at ih ⊢
    by_cases h : k = a
    · subst h
      simp only [List.filter, ne_eq, not_true_eq_false, decide_false, ih, Memory.get_cons]
      split <;> simp_all
    · simp only [List.filter, ne_eq, h, not_false_eq_true, decide_true, Memory.get_cons, ih]
      split <;> simp_all

theorem Memory.get_insert (m : Memory) (a x : Nat) (b : Byte) :
    (m.insert a b).get x = if x = a then b else m.get x := by
  induction m with
  | nil => simp [Memory.insert, Memory.get_cons]
  | cons c m ih =>
    obtain ⟨k, c⟩ := c
    simp only [Memory.insert]
    split
    · simp [Memory.get_cons]
    · split
      · subst_vars; simp only [Memory.get_cons]; split <;> rfl
      · simp only [Memory.get_cons, ih]; split <;> split <;> simp_all

/-- Reading any byte after writing one, in any memory. -/
theorem Memory.get_set (m : Memory) (a x : Nat) (b : Byte) :
    (m.set a b).get x = if x = a then b else m.get x := by
  unfold Memory.set
  split
  · rw [Memory.get_erase]; simp_all
  · rw [Memory.get_insert]

/-! ## The canonical form -/

/-- The canonical form, as a proposition. -/
theorem Memory.wf_iff (m : Memory) : m.wf = true ↔
    m.Pairwise (fun c d => c.1 < d.1) ∧ ∀ c ∈ m, c.1 < 2 ^ 64 ∧ c.2 ≠ Config.unlistedByte := by
  simp [Memory.wf, List.all_eq_true]

theorem Memory.wf_nil : Memory.wf [] = true := by decide

theorem Memory.wf_erase {m : Memory} (h : m.wf = true) (a : Nat) : (m.erase a).wf = true := by
  rw [Memory.wf_iff] at h ⊢
  refine ⟨h.1.filter _, fun c hc => h.2 c ?_⟩
  exact (List.mem_filter.mp hc).1

theorem Memory.mem_insert {m : Memory} {a : Nat} {b : Byte} {c : Host.Cell} (h : c ∈ m.insert a b) :
    c = (a, b) ∨ c ∈ m := by
  induction m with
  | nil => simpa [Memory.insert] using h
  | cons d m ih =>
    obtain ⟨k, e⟩ := d
    simp only [Memory.insert] at h
    split at h
    · simpa using h
    · split at h
      · rcases List.mem_cons.mp h with h | h
        · exact .inl h
        · exact .inr (List.mem_cons_of_mem _ h)
      · rcases List.mem_cons.mp h with h | h
        · exact .inr (h ▸ List.mem_cons_self ..)
        · rcases ih h with h | h
          · exact .inl h
          · exact .inr (List.mem_cons_of_mem _ h)

theorem Memory.wf_insert {m : Memory} (h : m.wf = true) {a : Nat} (ha : a < 2 ^ 64) {b : Byte}
    (hb : b ≠ Config.unlistedByte) : (m.insert a b).wf = true := by
  rw [Memory.wf_iff] at h ⊢
  refine ⟨?_, fun c hc => ?_⟩
  · obtain ⟨hp, -⟩ := h
    induction m with
    | nil => simp [Memory.insert]
    | cons d m ih =>
      obtain ⟨k, e⟩ := d
      obtain ⟨hk, hm⟩ := List.pairwise_cons.mp hp
      simp only [Memory.insert]
      split
      · rename_i hak
        refine List.pairwise_cons.mpr ⟨fun c hc => ?_, hp⟩
        rcases List.mem_cons.mp hc with rfl | hc
        · exact hak
        · exact Nat.lt_trans hak (hk c hc)
      · split
        · subst_vars; exact List.pairwise_cons.mpr ⟨hk, hm⟩
        · refine List.pairwise_cons.mpr ⟨fun c hc => ?_, ih hm⟩
          rcases Memory.mem_insert hc with rfl | hc
          · simp only; omega
          · exact hk c hc
  · rcases Memory.mem_insert hc with rfl | hc
    · exact ⟨ha, hb⟩
    · exact h.2 c hc

/-- Writing one byte keeps the canonical form. -/
theorem Memory.wf_set {m : Memory} (h : m.wf = true) {a : Nat} (ha : a < 2 ^ 64) (b : Byte) :
    (m.set a b).wf = true := by
  unfold Memory.set
  split
  · exact Memory.wf_erase h a
  · exact Memory.wf_insert h ha (by assumption)

/-- Storing a number keeps the canonical form. -/
theorem Memory.wf_storeLE {m : Memory} (h : m.wf = true) (a : Addr) (n v : Nat) : (m.storeLE a n v).wf = true := by
  induction n generalizing m a v with
  | zero => exact h
  | succ n ih => exact ih (Memory.wf_set h a.isLt _) _ _

/-- Placing a table word keeps the canonical form. -/
theorem Memory.wf_placeWord {m : Memory} (h : m.wf = true) (a : Addr) (nbits w : Nat) :
    (m.placeWord a nbits w).wf = true := Memory.wf_storeLE h _ _ _

/-- The memory of the reset state is in canonical form. -/
theorem State.reset_mem_wf : State.reset.mem.wf = true := Memory.wf_nil

/-- An address below the first of a rising list is not listed. -/
theorem Memory.get_of_lt {m : Memory} {x : Nat} (h : ∀ c ∈ m, x < c.1) : m.get x = Config.unlistedByte := by
  induction m with
  | nil => rfl
  | cons c m ih =>
    obtain ⟨k, b⟩ := c
    have hk := h (k, b) (List.mem_cons_self ..)
    rw [Memory.get_cons, if_neg (by simp only at hk; omega)]
    exact ih fun c hc => h c (List.mem_cons_of_mem _ hc)

/-- Canonical memories that read alike are equal. -/
theorem Memory.ext_of_wf {m m' : Memory} (h : m.wf = true) (h' : m'.wf = true) (e : ∀ x, m.get x = m'.get x) :
    m = m' := by
  rw [Memory.wf_iff] at h h'
  induction m generalizing m' with
  | nil =>
    cases m' with
    | nil => rfl
    | cons c m' =>
      obtain ⟨k, b⟩ := c
      have := e k
      rw [Memory.get_cons, if_pos rfl] at this
      exact absurd this.symm (h'.2 (k, b) (List.mem_cons_self ..)).2
  | cons c m ih =>
    obtain ⟨k, b⟩ := c
    obtain ⟨hp, hm⟩ := h
    obtain ⟨hk, hp⟩ := List.pairwise_cons.mp hp
    have hkb := (hm (k, b) (List.mem_cons_self ..)).2
    cases m' with
    | nil =>
      have := e k
      rw [Memory.get_cons, if_pos rfl] at this
      exact absurd this hkb
    | cons c' m' =>
      obtain ⟨k', b'⟩ := c'
      obtain ⟨hp', hm'⟩ := h'
      obtain ⟨hk', hp2'⟩ := List.pairwise_cons.mp hp'
      have hkb' := (hm' (k', b') (List.mem_cons_self ..)).2
      have key : k = k' := by
        rcases Nat.lt_trichotomy k k' with hlt | rfl | hlt
        · have := e k
          rw [Memory.get_cons, if_pos rfl, Memory.get_of_lt] at this
          · exact absurd this hkb
          · intro c hc
            rcases List.mem_cons.mp hc with rfl | hc
            · exact hlt
            · exact Nat.lt_trans hlt (hk' c hc)
        · rfl
        · have := e k'
          rw [Memory.get_cons k', if_pos rfl, Memory.get_of_lt] at this
          · exact absurd this.symm hkb'
          · intro c hc
            rcases List.mem_cons.mp hc with rfl | hc
            · exact hlt
            · exact Nat.lt_trans hlt (hk c hc)
      subst key
      have hb : b = b' := by simpa [Memory.get_cons] using e k
      subst hb
      congr 1
      refine ih ⟨hp, fun c hc => hm c (List.mem_cons_of_mem _ hc)⟩
        ⟨hp2', fun c hc => hm' c (List.mem_cons_of_mem _ hc)⟩ fun x => ?_
      have := e x
      simp only [Memory.get_cons] at this
      by_cases hx : x = k
      · subst hx; rw [Memory.get_of_lt hk, Memory.get_of_lt hk']
      · simpa [hx] using this

/-! ## Little-endian numbers -/

/-- n bytes make a number below 256^n. -/
theorem Memory.loadLE_lt (m : Memory) (a : Addr) (n : Nat) : m.loadLE a n < 256 ^ n := by
  induction n generalizing a with
  | zero => simp [Memory.loadLE]
  | succ n ih =>
    have := ih (a + 1)
    have hb := (m.get a.toNat).isLt
    simp only [Memory.loadLE, pow_succ]
    omega

/-- An address n + 1 bytes further is n bytes further than the next address. -/
theorem up_succ (a : Addr) (n : Nat) : up a (n + 1) = up (a + 1) n := by
  simp only [up, BitVec.ofNat_add]; ac_rfl

@[simp] theorem up_zero (a : Addr) : up a 0 = a := by simp [up]

/-- The number read depends on the bytes read alone. -/
theorem Memory.loadLE_congr {m m' : Memory} {a : Addr} {n : Nat}
    (h : ∀ j < n, m'.get (up a j).toNat = m.get (up a j).toNat) : m'.loadLE a n = m.loadLE a n := by
  induction n generalizing a with
  | zero => rfl
  | succ n ih =>
    simp only [Memory.loadLE]
    have h0 := h 0 (by omega)
    rw [up_zero] at h0
    rw [h0, ih fun j hj => by rw [← up_succ]; exact h (j + 1) (by omega)]

/-- The distance of an address from the next one. -/
theorem sub_succ (a x : Addr) (h : x ≠ a) : (x - a).toNat = (x - (a + 1)).toNat + 1 := by
  bv_omega

/-- Reading any byte after storing the n low bytes of v: one of them, or what it was. -/
theorem Memory.get_storeLE (m : Memory) (a : Addr) (n v : Nat) (hn : n ≤ 2 ^ 64) (x : Addr) :
    (m.storeLE a n v).get x.toNat =
      if (x - a).toNat < n then BitVec.ofNat 8 (v / 256 ^ (x - a).toNat) else m.get x.toNat := by
  induction n generalizing m a v with
  | zero => simp [Memory.storeLE]
  | succ n ih =>
    simp only [Memory.storeLE]
    rw [ih _ _ _ (by omega), Memory.get_set]
    by_cases hx : x = a
    · subst hx
      have h1 : (x - (x + 1)).toNat = 2 ^ 64 - 1 := by bv_omega
      have h0 : (x - x).toNat = 0 := by bv_omega
      rw [h1, h0, if_neg (by omega)]
      simp
    · have hs := sub_succ a x hx
      have hne : x.toNat ≠ a.toNat := fun h => hx (BitVec.eq_of_toNat_eq h)
      rw [hs, if_neg hne]
      by_cases hl : (x - (a + 1)).toNat < n
      · rw [if_pos hl, if_pos (by omega), Nat.div_div_eq_div_mul, pow_succ]
        congr 2; ac_rfl
      · rw [if_neg hl, if_neg (by omega)]

/-- A byte that is none of the n bytes stored reads as before. -/
theorem Memory.get_storeLE_of_not_within (m : Memory) (a : Addr) (n v : Nat) (hn : n ≤ 2 ^ 64) {x : Addr}
    (h : ¬ Within a n x) : (m.storeLE a n v).get x.toNat = m.get x.toNat := by
  rw [Memory.get_storeLE m a n v hn]; exact if_neg h

theorem up_sub (a : Addr) {j : Nat} (hj : j < 2 ^ 64) : (up a j - a).toNat = j := by
  have : up a j - a = BitVec.ofNat 64 j := by simp only [up]; bv_omega
  rw [this, BitVec.toNat_ofNat, Nat.mod_eq_of_lt hj]

/-- Each of the n addresses from a on is within them. -/
theorem within_up (a : Addr) {n j : Nat} (hj : j < n) (hn : n ≤ 2 ^ 64) : Within a n (up a j) := by
  rw [Within, up_sub a (by omega)]; exact hj

/-- An address within the n from a on is one of them. -/
theorem Within.eq_up {a x : Addr} {n : Nat} (h : Within a n x) : ∃ j < n, x = up a j :=
  ⟨(x - a).toNat, h, by simp only [up, BitVec.ofNat_toNat, BitVec.setWidth_eq]; bv_omega⟩

/-- Reading n bytes makes their number, the least significant first. -/
theorem Memory.loadLE_eq_of_bytes {m : Memory} {a : Addr} {n v : Nat}
    (h : ∀ j < n, m.get (up a j).toNat = BitVec.ofNat 8 (v / 256 ^ j)) : m.loadLE a n = v % 256 ^ n := by
  induction n generalizing a v with
  | zero => simp [Memory.loadLE, Nat.mod_one]
  | succ n ih =>
    simp only [Memory.loadLE]
    have h0 := h 0 (by omega)
    rw [up_zero] at h0
    have ih' : m.loadLE (a + 1) n = v / 256 % 256 ^ n := ih fun j hj => by
      rw [← up_succ, h (j + 1) (by omega), Nat.div_div_eq_div_mul, pow_succ]
      congr 2; ac_rfl
    rw [h0, ih', pow_zero, Nat.div_one, BitVec.toNat_ofNat, show (2 : Nat) ^ 8 = 256 from rfl,
      Nat.pow_succ', Nat.mod_mul (x := v) (a := 256)]

/-- The number stored is the number read. -/
theorem Memory.loadLE_storeLE (m : Memory) (a : Addr) (n v : Nat) (hn : n ≤ 2 ^ 64) :
    (m.storeLE a n v).loadLE a n = v % 256 ^ n :=
  Memory.loadLE_eq_of_bytes fun j hj => by
    rw [Memory.get_storeLE m a n v hn, up_sub a (by omega), if_pos hj]

end Sys2Proof.Machine

namespace Sys2Proof

theorem Width.bits_eq (w : Width) : w.bits = 8 * w.bytes := by cases w <;> rfl

theorem Width.pow_bytes (w : Width) : 256 ^ w.bytes = 2 ^ w.bits := by cases w <;> rfl

theorem Width.bytes_pos (w : Width) : 0 < w.bytes := by cases w <;> decide

theorem Width.bytes_le (w : Width) : w.bytes ≤ 2 ^ 64 := by cases w <;> decide

end Sys2Proof

namespace Sys2Proof.Machine

/-- The element stored is the element read. -/
theorem State.elem_of_storeLE {s : State} {m : Memory} {a : Addr} {w : Width} {v : Elem w}
    (h : s.mem = m.storeLE a w.bytes v.toNat) : s.elem a w = v := by
  rw [State.elem, h, Memory.loadLE_storeLE m a _ _ w.bytes_le, Width.pow_bytes, Nat.mod_eq_of_lt v.isLt]
  simp

/-- The bits of an element are the number its bytes make. -/
theorem State.elem_toNat (s : State) (a : Addr) (w : Width) : (s.elem a w).toNat = s.mem.loadLE a w.bytes := by
  rw [State.elem, BitVec.toNat_ofNat, ← Width.pow_bytes]
  exact Nat.mod_eq_of_lt (s.mem.loadLE_lt a w.bytes)

/-- Elements at an address are equal where their bytes are. -/
theorem State.elem_congr {s t : State} {a : Addr} {w : Width}
    (h : ∀ j < w.bytes, t.mem.get (up a j).toNat = s.mem.get (up a j).toNat) : t.elem a w = s.elem a w := by
  rw [State.elem, State.elem, Memory.loadLE_congr h]

/-! ## Byte strings -/

theorem leBytes_length (n v : Nat) : (leBytes n v).length = n := by
  induction n generalizing v with
  | zero => rfl
  | succ n ih => simp [leBytes, ih]

/-- Bytes and number, one way. -/
theorem leNat_leBytes (n v : Nat) : leNat (leBytes n v) = v % 256 ^ n := by
  induction n generalizing v with
  | zero => simp [leBytes, leNat, Nat.mod_one]
  | succ n ih =>
    simp only [leBytes, leNat, ih, BitVec.toNat_ofNat]
    rw [show (2 : Nat) ^ 8 = 256 from rfl,
      Nat.pow_succ', Nat.mod_mul (x := v) (a := 256)]

/-- Bytes and number, the other way. -/
theorem leBytes_leNat (bs : List Byte) : leBytes bs.length (leNat bs) = bs := by
  induction bs with
  | nil => rfl
  | cons b bs ih =>
    simp only [List.length_cons, leBytes, leNat]
    have h : (b.toNat + 256 * leNat bs) / 256 = leNat bs := by have := b.isLt; omega
    rw [h, ih]
    congr 1
    apply BitVec.eq_of_toNat_eq
    have := b.isLt
    simp only [BitVec.toNat_ofNat]; omega

theorem Memory.bytesAt_length (m : Memory) (a : Addr) (n : Nat) : (m.bytesAt a n).length = n := by
  induction n generalizing a with
  | zero => rfl
  | succ n ih => simp [Memory.bytesAt, ih]

/-- A number read from memory is the number of the bytes there. -/
theorem Memory.loadLE_eq_leNat (m : Memory) (a : Addr) (n : Nat) : m.loadLE a n = leNat (m.bytesAt a n) := by
  induction n generalizing a with
  | zero => rfl
  | succ n ih => simp [Memory.loadLE, Memory.bytesAt, leNat, ih]

/-- The first bytes of a longer string. -/
theorem Memory.take_bytesAt (m : Memory) (a : Addr) {k n : Nat} (h : k ≤ n) :
    (m.bytesAt a n).take k = m.bytesAt a k := by
  induction k generalizing a n with
  | zero => simp [Memory.bytesAt]
  | succ k ih =>
    obtain ⟨n, rfl⟩ : ∃ n', n = n' + 1 := ⟨n - 1, by omega⟩
    rw [Memory.bytesAt, Memory.bytesAt, List.take_succ_cons, ih (a + 1) (by omega : k ≤ n)]

end Sys2Proof.Machine
end

