-- ==== Sys2Proof/Laws/Ops.lean ====
section
/-! SUPPORT. What each check and each access can answer (spec 20_memory.md R55 to R61), said once. -/

namespace Sys2Proof.Machine

/-! ## Results of checked computations -/

@[simp] theorem except_bind_ok {ε α β : Type} (a : α) (f : α → Except ε β) : (Except.ok a >>= f) = f a := rfl

@[simp] theorem except_bind_error {ε α β : Type} (e : ε) (f : α → Except ε β) :
    ((Except.error e : Except ε α) >>= f) = .error e := rfl

@[simp] theorem except_pure {ε α : Type} (a : α) : (pure a : Except ε α) = .ok a := rfl

@[simp] theorem finish_ok (s t : State) : finish s (.ok t) = .next t := rfl

@[simp] theorem finish_error (s : State) (c : FaultCause) : finish s (.error c) = .next (s.raise c) := rfl

/-! ## The first offending address -/

theorem firstIn_eq_none {p : Addr → Bool} {a : Addr} {n : Nat} :
    firstIn p a n = none ↔ ∀ j < n, p (up a j) = false := by
  induction n generalizing a with
  | zero => simp [firstIn]
  | succ n ih =>
    simp only [firstIn]
    constructor
    · intro h j hj
      split at h
      · cases h
      · rcases j with _ | j
        · rename_i hp; rw [up_zero]; simpa using hp
        · rw [up_succ]; exact ih.mp h j (by omega)
    · intro h
      have h0 := h 0 (by omega)
      rw [up_zero] at h0
      rw [if_neg (by simp [h0])]
      exact ih.mpr fun j hj => by rw [← up_succ]; exact h (j + 1) (by omega)

/-- The first address is one of the n, p holds of it, and of none before it. -/
theorem firstIn_eq_some {p : Addr → Bool} {a x : Addr} {n : Nat} (h : firstIn p a n = some x) :
    ∃ j < n, x = up a j ∧ p x = true ∧ ∀ k < j, p (up a k) = false := by
  induction n generalizing a with
  | zero => cases h
  | succ n ih =>
    simp only [firstIn] at h
    split at h
    · rename_i hp
      cases h
      exact ⟨0, by omega, (up_zero _).symm, hp, fun k hk => absurd hk (by omega)⟩
    · rename_i hp
      obtain ⟨j, hj, hx, hpx, hk⟩ := ih h
      refine ⟨j + 1, by omega, by rw [up_succ]; exact hx, hpx, fun k hk' => ?_⟩
      rcases k with _ | k
      · rw [up_zero]; simpa using hp
      · rw [up_succ]; exact hk k (by omega)

/-- The first of the n addresses of which p holds is found. -/
theorem firstIn_of_first {p : Addr → Bool} {a : Addr} {n j : Nat} (hj : j < n) (hp : p (up a j) = true)
    (hk : ∀ k < j, p (up a k) = false) : firstIn p a n = some (up a j) := by
  induction n generalizing a j with
  | zero => omega
  | succ n ih =>
    simp only [firstIn]
    rcases j with _ | j
    · rw [up_zero] at hp ⊢; rw [if_pos hp]
    · have h0 := hk 0 (by omega)
      rw [up_zero] at h0
      rw [if_neg (by simp [h0]), up_succ]
      refine ih (by omega) (by rw [← up_succ]; exact hp) fun k hk' => ?_
      rw [← up_succ]; exact hk (k + 1) (by omega)

/-! ## The checks -/

theorem frameCheck_ok {s : State} {a : Addr} {n : Nat} (h : ∀ j < n, s.inWindow (up a j) = false) :
    frameCheck s a n = .ok () := by rw [frameCheck, firstIn_eq_none.mpr h]

theorem mapCheck_ok {s : State} {a : Addr} {n : Nat} (h : MappedOk s a n) : mapCheck s a n = .ok () := by
  rw [mapCheck, firstIn_eq_none.mpr fun j hj => by simp [h j hj]]

/-- The protection check passes, or raises FrameFault with the first address in the window. -/
theorem frameCheck_cases (s : State) (a : Addr) (n : Nat) :
    (frameCheck s a n = .ok () ∧ ∀ j < n, s.inWindow (up a j) = false) ∨
    ∃ j < n, frameCheck s a n = .error (.frameFault (up a j)) ∧ s.inWindow (up a j) = true ∧
      ∀ k < j, s.inWindow (up a k) = false := by
  unfold frameCheck
  cases h : firstIn s.inWindow a n with
  | none => exact .inl ⟨rfl, firstIn_eq_none.mp h⟩
  | some x =>
    obtain ⟨j, hj, rfl, hp, hk⟩ := firstIn_eq_some h
    exact .inr ⟨j, hj, rfl, hp, hk⟩

/-- The MAPPED check passes, or raises AccessFault with the first address that is not mapped. -/
theorem mapCheck_cases (s : State) (a : Addr) (n : Nat) :
    (mapCheck s a n = .ok () ∧ MappedOk s a n) ∨
    ∃ j < n, mapCheck s a n = .error (.accessFault (up a j)) ∧ s.mapped (up a j) = false ∧
      ∀ k < j, s.mapped (up a k) = true := by
  unfold mapCheck
  cases h : firstIn (fun x => !s.mapped x) a n with
  | none => exact .inl ⟨rfl, fun j hj => by simpa using firstIn_eq_none.mp h j hj⟩
  | some x =>
    obtain ⟨j, hj, rfl, hp, hk⟩ := firstIn_eq_some h
    exact .inr ⟨j, hj, rfl, by simpa using hp, fun k hk' => by simpa using hk k hk'⟩

theorem stackCheck_ok {s : State} {nIn nOut : Nat} (h : StackOk s nIn nOut) : stackCheck s nIn nOut = .ok () := by
  obtain ⟨h1, h2⟩ := h
  rw [stackCheck, if_neg (by omega), if_neg (by omega)]

theorem stackCheck_underflow {s : State} {nIn nOut : Nat} (h : s.sbp.toNat < s.sp.toNat + nIn) :
    stackCheck s nIn nOut = .error .stackUnderflow := by rw [stackCheck, if_pos (by omega)]

theorem stackCheck_overflow {s : State} {nIn nOut : Nat} (h : s.sp.toNat + nIn ≤ s.sbp.toNat)
    (h' : s.sp.toNat + nIn < s.slp.toNat + nOut) : stackCheck s nIn nOut = .error .stackOverflow := by
  rw [stackCheck, if_neg (by omega), if_pos (by omega)]

/-- StackCheck passes, or raises StackUnderflow, or raises StackOverflow. -/
theorem stackCheck_cases (s : State) (nIn nOut : Nat) :
    (stackCheck s nIn nOut = .ok () ∧ StackOk s nIn nOut) ∨
    (stackCheck s nIn nOut = .error .stackUnderflow ∧ s.sbp.toNat < s.sp.toNat + nIn) ∨
    (stackCheck s nIn nOut = .error .stackOverflow ∧ s.sp.toNat + nIn ≤ s.sbp.toNat ∧
      s.sp.toNat + nIn < s.slp.toNat + nOut) := by
  by_cases h : s.sbp.toNat < s.sp.toNat + nIn
  · exact .inr (.inl ⟨stackCheck_underflow h, h⟩)
  · by_cases h' : s.sp.toNat + nIn < s.slp.toNat + nOut
    · exact .inr (.inr ⟨stackCheck_overflow (by omega) h', by omega, h'⟩)
    · have hk : StackOk s nIn nOut := ⟨by omega, by omega⟩
      exact .inl ⟨stackCheck_ok hk, hk⟩

/-- The check of ret passes, or raises StackUnderflow, or raises StackOverflow. -/
theorem frameStackCheck_cases (s : State) :
    (frameStackCheck s = .ok () ∧ s.sfp.toNat + 16 ≤ s.sbp.toNat ∧ s.slp.toNat ≤ s.sfp.toNat + 16) ∨
    (frameStackCheck s = .error .stackUnderflow ∧ s.sbp.toNat < s.sfp.toNat + 16) ∨
    (frameStackCheck s = .error .stackOverflow ∧ s.sfp.toNat + 16 ≤ s.sbp.toNat ∧
      s.sfp.toNat + 16 < s.slp.toNat) := by
  unfold frameStackCheck
  split
  · exact .inr (.inl ⟨rfl, by omega⟩)
  · split
    · exact .inr (.inr ⟨rfl, by omega, by omega⟩)
    · exact .inl ⟨rfl, by omega, by omega⟩

theorem frameStackCheck_ok {s : State} (h : s.sfp.toNat + 16 ≤ s.sbp.toNat) (h' : s.slp.toNat ≤ s.sfp.toNat + 16) :
    frameStackCheck s = .ok () := by
  rw [frameStackCheck, if_neg (by omega), if_neg (by omega)]

/-! ## The accesses -/

theorem DataOk.mapped {s : State} {a : Addr} {n : Nat} (h : DataOk s a n) : MappedOk s a n := fun j hj => (h j hj).2

theorem fetch_ok {s : State} {a : Addr} {n : Nat} (h : MappedOk s a n) : fetch s a n = .ok (s.mem.loadLE a n) := by
  simp [fetch, mapCheck_ok h]

theorem memRead_ok {s : State} {a : Addr} {w : Width} (h : DataOk s a w.bytes) :
    memRead s a w = .ok (s.elem a w) := by
  simp [memRead, frameCheck_ok fun j hj => (h j hj).1, mapCheck_ok h.mapped]

theorem memWrite_ok {s : State} {m : Memory} {a : Addr} {w : Width} {v : Elem w} (h : DataOk s a w.bytes) :
    memWrite s m a w v = .ok (m.storeLE a w.bytes v.toNat) := by
  simp [memWrite, frameCheck_ok fun j hj => (h j hj).1, mapCheck_ok h.mapped]

theorem rawRead_ok {s : State} {a : Addr} {w : Width} (h : MappedOk s a w.bytes) :
    rawRead s a w = .ok (s.elem a w) := by
  simp [rawRead, mapCheck_ok h]

/-- The two checks of a data access pass, or raise. -/
theorem dataChecks_cases (s : State) (a : Addr) (n : Nat) :
    (frameCheck s a n = .ok () ∧ mapCheck s a n = .ok () ∧ DataOk s a n) ∨
    ∃ c, DataFault s a n c ∧ (frameCheck s a n = .error c ∨ frameCheck s a n = .ok () ∧ mapCheck s a n = .error c) := by
  rcases frameCheck_cases s a n with ⟨hf, hw⟩ | ⟨j, hj, hf, hw, hk⟩
  · rcases mapCheck_cases s a n with ⟨hm, hp⟩ | ⟨j, hj, hm, hp, hk⟩
    · exact .inl ⟨hf, hm, fun j hj => ⟨hw j hj, hp j hj⟩⟩
    · exact .inr ⟨_, .inr ⟨hw, j, hj, rfl, hp, hk⟩, .inr ⟨hf, hm⟩⟩
  · exact .inr ⟨_, .inl ⟨j, hj, rfl, hw, hk⟩, .inl hf⟩

/-- MemRead answers the element, or raises. -/
theorem memRead_cases (s : State) (a : Addr) (w : Width) :
    (memRead s a w = .ok (s.elem a w) ∧ DataOk s a w.bytes) ∨
    ∃ c, memRead s a w = .error c ∧ DataFault s a w.bytes c := by
  rcases dataChecks_cases s a w.bytes with ⟨hf, hm, h⟩ | ⟨c, hc, hf | ⟨hf, hm⟩⟩
  · exact .inl ⟨memRead_ok h, h⟩
  · exact .inr ⟨c, by simp [memRead, hf], hc⟩
  · exact .inr ⟨c, by simp [memRead, hf, hm], hc⟩

/-- MemWrite answers the memory with the element stored, or raises. -/
theorem memWrite_cases (s : State) (m : Memory) (a : Addr) (w : Width) (v : Elem w) :
    (memWrite s m a w v = .ok (m.storeLE a w.bytes v.toNat) ∧ DataOk s a w.bytes) ∨
    ∃ c, memWrite s m a w v = .error c ∧ DataFault s a w.bytes c := by
  rcases dataChecks_cases s a w.bytes with ⟨hf, hm, h⟩ | ⟨c, hc, hf | ⟨hf, hm⟩⟩
  · exact .inl ⟨memWrite_ok h, h⟩
  · exact .inr ⟨c, by simp [memWrite, hf], hc⟩
  · exact .inr ⟨c, by simp [memWrite, hf, hm], hc⟩

/-- RawRead answers the element, or raises AccessFault. -/
theorem rawRead_cases (s : State) (a : Addr) (w : Width) :
    (rawRead s a w = .ok (s.elem a w) ∧ MappedOk s a w.bytes) ∨
    ∃ j < w.bytes, rawRead s a w = .error (.accessFault (up a j)) ∧ s.mapped (up a j) = false := by
  rcases mapCheck_cases s a w.bytes with ⟨hm, h⟩ | ⟨j, hj, hm, hp, -⟩
  · exact .inl ⟨rawRead_ok h, h⟩
  · exact .inr ⟨j, hj, by simp [rawRead, hm], hp⟩

/-- A data access that would raise a cause raises it. -/
theorem memRead_error {s : State} {a : Addr} {w : Width} {c : FaultCause} (h : DataFault s a w.bytes c) :
    memRead s a w = .error c := by
  rcases h with ⟨j, hj, rfl, hw, hk⟩ | ⟨hw, j, hj, rfl, hp, hk⟩
  · simp [memRead, frameCheck, firstIn_of_first hj hw hk]
  · have := firstIn_of_first (p := fun x => !s.mapped x) (a := a) hj (by simp [hp]) (fun k hk' => by simp [hk k hk'])
    simp [memRead, frameCheck_ok hw, mapCheck, this]

/-- A data write that would raise a cause raises it. -/
theorem memWrite_error {s : State} {m : Memory} {a : Addr} {w : Width} {v : Elem w} {c : FaultCause}
    (h : DataFault s a w.bytes c) : memWrite s m a w v = .error c := by
  rcases h with ⟨j, hj, rfl, hw, hk⟩ | ⟨hw, j, hj, rfl, hp, hk⟩
  · simp [memWrite, frameCheck, firstIn_of_first hj hw hk]
  · have := firstIn_of_first (p := fun x => !s.mapped x) (a := a) hj (by simp [hp]) (fun k hk' => by simp [hk k hk'])
    simp [memWrite, frameCheck_ok hw, mapCheck, this]

/-- Where no access is possible, an access raises. -/
theorem not_dataOk {s : State} {a : Addr} {n : Nat} (h : ¬ DataOk s a n) : ∃ c, DataFault s a n c := by
  rcases dataChecks_cases s a n with ⟨-, -, hk⟩ | ⟨c, hc, -⟩
  · exact absurd hk h
  · exact ⟨c, hc⟩

/-- An address is in the protected window exactly when it is within the 16 addresses from SFP on. -/
theorem inWindow_iff (s : State) (x : Addr) : s.inWindow x = true ↔ Within s.sfp 16 x := by
  simp [State.inWindow, Within]

/-- What a data access may touch is not in the window. -/
theorem DataOk.not_inWindow {s : State} {a : Addr} {n : Nat} (h : DataOk s a n) {x : Addr} (hx : Within a n x) :
    s.inWindow x = false := by
  obtain ⟨j, hj, rfl⟩ := hx.eq_up
  exact (h j hj).1

/-! ## Addresses -/

theorem up_up (a : Addr) (n m : Nat) : up (up a n) m = up a (n + m) := by
  simp only [up, BitVec.ofNat_add]; ac_rfl

theorem down_up (a : Addr) (n : Nat) : down (up a n) n = a := by simp only [up, down]; bv_omega

@[simp] theorem down_zero (a : Addr) : down a 0 = a := by simp [down]

theorem up_down (a : Addr) (n : Nat) : up (down a n) n = a := by simp only [up, down]; bv_omega

/-- With more operand than result bytes, the result lies above SP by the difference. -/
theorem resultAddr_pop (s : State) {nIn nOut : Nat} (h : nOut ≤ nIn) : resultAddr s nIn nOut = up s.sp (nIn - nOut) := by
  obtain ⟨k, rfl⟩ := Nat.exists_eq_add_of_le' h
  rw [resultAddr, Nat.add_sub_cancel, ← up_up, down_up]

/-- With more result than operand bytes, the result lies below SP by the difference. -/
theorem resultAddr_push (s : State) {nIn nOut : Nat} (h : nIn ≤ nOut) :
    resultAddr s nIn nOut = down s.sp (nOut - nIn) := by
  obtain ⟨k, rfl⟩ := Nat.exists_eq_add_of_le h
  simp only [resultAddr, Nat.add_sub_cancel_left, up, down, BitVec.ofNat_add]
  bv_omega

/-- After a StackCheck that passes, the new SP as a number. -/
theorem resultAddr_toNat {s : State} {nIn nOut : Nat} (h : StackOk s nIn nOut) :
    (resultAddr s nIn nOut).toNat = s.sp.toNat + nIn - nOut := by
  obtain ⟨h1, h2⟩ := h
  have hb := s.sbp.isLt
  have hl := s.slp.isLt
  simp only [resultAddr, up, down]
  bv_omega

end Sys2Proof.Machine
end

