-- ==== Sys2Proof/Laws/Arith.lean ====
section
/-! SUPPORT. What each arithmetic function computes, as integers (spec 00_scope.md R7, 42_integer_arithmetic.md R180 to R184,
43_shift_bitwise.md R250 to R252). -/

namespace Sys2Proof.Machine

/-! ## Integers and patterns -/

/-- The unsigned integer of a pattern made from an integer. -/
theorem toNat_ofInt_emod (n : Nat) (z : Int) : ((BitVec.ofInt n z).toNat : Int) = z % 2 ^ n := by
  rw [BitVec.toNat_ofInt]
  have h : (0 : Int) ≤ z % (2 ^ n : Nat) := Int.emod_nonneg _ (by positivity)
  rw [Int.toNat_of_nonneg h]
  simp

/-- The unsigned integer of a pattern made from a natural number. -/
theorem toNat_ofNat_emod (n k : Nat) : ((BitVec.ofNat n k).toNat : Int) = (k : Int) % 2 ^ n := by
  rw [BitVec.toNat_ofNat]
  simp

/-- The signed and the unsigned integer of a pattern agree modulo 2^N. -/
theorem toInt_modEq {n : Nat} (a : BitVec n) : (a.toNat : Int) ≡ a.toInt [ZMOD 2 ^ n] := by
  have h := congrArg (fun x : BitVec n => (x.toNat : Int)) (BitVec.ofInt_toInt (x := a)).symm
  simp only [toNat_ofInt_emod] at h
  rw [h]
  exact Int.mod_modEq _ _

/-- Two patterns with unsigned integers that agree modulo 2^N are equal. -/
theorem eq_of_modEq {n : Nat} {a b : BitVec n} (h : (a.toNat : Int) ≡ b.toNat [ZMOD 2 ^ n]) : a = b := by
  apply BitVec.eq_of_toNat_eq
  have ha := a.isLt
  have hb := b.isLt
  have h' : a.toNat ≡ b.toNat [MOD 2 ^ n] := by
    rw [← Int.natCast_modEq_iff]
    simpa using h
  rwa [Nat.ModEq, Nat.mod_eq_of_lt ha, Nat.mod_eq_of_lt hb] at h'

/-- A pattern made from an integer in the signed range has that signed integer. -/
theorem toInt_ofInt_of_range {n : Nat} {z : Int} (hn : 0 < n) (h1 : -2 ^ (n - 1) ≤ z) (h2 : z < 2 ^ (n - 1)) :
    (BitVec.ofInt n z).toInt = z := by
  obtain ⟨k, rfl⟩ : ∃ k, n = k + 1 := ⟨n - 1, by omega⟩
  rw [Nat.add_sub_cancel] at h1 h2
  rw [BitVec.toInt_ofInt, Int.bmod_eq_of_le] <;> push_cast <;> rw [pow_succ] <;> omega

theorem neg_pow_le_toInt {n : Nat} (a : BitVec n) : -2 ^ (n - 1) ≤ a.toInt := BitVec.le_toInt a

theorem toInt_lt_pow {n : Nat} (a : BitVec n) : a.toInt < 2 ^ (n - 1) := by
  have h := @BitVec.toInt_lt n a
  simpa using h

/-! ## Widening and narrowing -/

theorem zext_toNat (w : Width) {n : Nat} (v : BitVec n) (h : n ≤ w.bits) : (zext w v).toNat = v.toNat :=
  BitVec.toNat_setWidth_of_le h

theorem sext_toInt (w : Width) {n : Nat} (v : BitVec n) (h : n ≤ w.bits) : (sext w v).toInt = v.toInt :=
  BitVec.toInt_signExtend_of_le h

theorem trunc_toNat (w : Width) {n : Nat} (v : BitVec n) : (trunc w v).toNat = v.toNat % 2 ^ w.bits := by
  rw [trunc, BitVec.toNat_setWidth]

/-! ## Sum, difference, product -/

theorem addElem_toNat {n : Nat} (a b : BitVec n) :
    ((addElem a b).toNat : Int) = ((a.toNat : Int) + b.toNat) % 2 ^ n := by
  rw [addElem, toNat_ofNat_emod]; push_cast; rfl

theorem subElem_toNat {n : Nat} (a b : BitVec n) :
    ((subElem a b).toNat : Int) = ((a.toNat : Int) - b.toNat) % 2 ^ n := toNat_ofInt_emod ..

theorem muluElem_toNat {n : Nat} (a b : BitVec n) :
    ((muluElem a b).toNat : Int) = ((a.toNat : Int) * b.toNat) % 2 ^ n := by
  rw [muluElem, toNat_ofNat_emod]; push_cast; rfl

theorem muliElem_toNat {n : Nat} (a b : BitVec n) :
    ((muliElem a b).toNat : Int) = (a.toInt * b.toInt) % 2 ^ n := toNat_ofInt_emod ..

/-! ## Quotient and remainder -/

theorem divisorCheck_zero {n : Nat} {y : BitVec n} (h : y = 0) : divisorCheck y = .error .divideByZero := if_pos h

theorem divisorCheck_ok {n : Nat} {y : BitVec n} (h : y ≠ 0) : divisorCheck y = .ok () := if_neg h

theorem signedDivCheck_zero {o : DivOverflow} {n : Nat} {x y : BitVec n} (h : y = 0) :
    signedDivCheck o x y = .error .divideByZero := by simp [signedDivCheck, divisorCheck_zero h]

/-- The signed check passes, where the divisor is not zero and there is no overflow or it wraps. -/
theorem signedDivCheck_ok {o : DivOverflow} {n : Nat} {x y : BitVec n} (h : y ≠ 0)
    (h' : ¬ (o = .fault ∧ x.toInt = minInt n ∧ y.toInt = -1)) : signedDivCheck o x y = .ok () := by
  rw [signedDivCheck, divisorCheck_ok h, except_bind_ok, if_neg h']

theorem signedDivCheck_overflow {n : Nat} {x y : BitVec n} (h : y ≠ 0) (hx : x.toInt = minInt n)
    (hy : y.toInt = -1) : signedDivCheck .fault x y = .error .divideOverflow := by
  rw [signedDivCheck, divisorCheck_ok h, except_bind_ok, if_pos ⟨rfl, hx, hy⟩]

theorem quotU_zero {n : Nat} {x y : BitVec n} (h : y = 0) : quotU x y = .error .divideByZero := by
  simp [quotU, divisorCheck_zero h]

theorem remU_zero {n : Nat} {x y : BitVec n} (h : y = 0) : remU x y = .error .divideByZero := by
  simp [remU, divisorCheck_zero h]

theorem quotI_zero {o : DivOverflow} {n : Nat} {x y : BitVec n} (h : y = 0) : quotI o x y = .error .divideByZero := by
  simp [quotI, signedDivCheck_zero h]

theorem remI_zero {o : DivOverflow} {n : Nat} {x y : BitVec n} (h : y = 0) : remI o x y = .error .divideByZero := by
  simp [remI, signedDivCheck_zero h]

theorem quotU_ok {n : Nat} {x y : BitVec n} (h : y ≠ 0) :
    quotU x y = .ok (BitVec.ofNat n (x.toNat / y.toNat)) := by simp [quotU, divisorCheck_ok h]

theorem remU_ok {n : Nat} {x y : BitVec n} (h : y ≠ 0) :
    remU x y = .ok (BitVec.ofNat n (x.toNat % y.toNat)) := by simp [remU, divisorCheck_ok h]

theorem quotU_toNat {n : Nat} (x y : BitVec n) : (BitVec.ofNat n (x.toNat / y.toNat)).toNat = x.toNat / y.toNat := by
  rw [BitVec.toNat_ofNat, Nat.mod_eq_of_lt (Nat.lt_of_le_of_lt (Nat.div_le_self _ _) x.isLt)]

theorem remU_toNat {n : Nat} (x y : BitVec n) : (BitVec.ofNat n (x.toNat % y.toNat)).toNat = x.toNat % y.toNat := by
  rw [BitVec.toNat_ofNat, Nat.mod_eq_of_lt (Nat.lt_of_le_of_lt (Nat.mod_le _ _) x.isLt)]

theorem quotI_ok {o : DivOverflow} {n : Nat} {x y : BitVec n} (h : y ≠ 0)
    (h' : ¬ (o = .fault ∧ x.toInt = minInt n ∧ y.toInt = -1)) :
    quotI o x y = .ok (BitVec.ofInt n (x.toInt.tdiv y.toInt)) := by simp [quotI, signedDivCheck_ok h h', quotInt]

theorem remI_ok {o : DivOverflow} {n : Nat} {x y : BitVec n} (h : y ≠ 0)
    (h' : ¬ (o = .fault ∧ x.toInt = minInt n ∧ y.toInt = -1)) :
    remI o x y = .ok (BitVec.ofInt n (x.toInt.tmod y.toInt)) := by
  have e : x.toInt - quotInt x y * y.toInt = x.toInt.tmod y.toInt := by
    rw [quotInt, Int.tmod_def, Int.mul_comm]
  simp [remI, signedDivCheck_ok h h', e]

theorem quotI_overflow {n : Nat} {x y : BitVec n} (h : y ≠ 0) (hx : x.toInt = minInt n) (hy : y.toInt = -1) :
    quotI .fault x y = .error .divideOverflow := by simp [quotI, signedDivCheck_overflow h hx hy]

theorem remI_overflow {n : Nat} {x y : BitVec n} (h : y ≠ 0) (hx : x.toInt = minInt n) (hy : y.toInt = -1) :
    remI .fault x y = .error .divideOverflow := by simp [remI, signedDivCheck_overflow h hx hy]

/-- Where the signed quotient does not overflow it is exact. -/
theorem quotI_toInt {n : Nat} (hn : 0 < n) {x y : BitVec n} (h' : ¬ (x.toInt = minInt n ∧ y.toInt = -1)) :
    (BitVec.ofInt n (x.toInt.tdiv y.toInt)).toInt = x.toInt.tdiv y.toInt := by
  have hx1 := neg_pow_le_toInt x
  have hx2 := toInt_lt_pow x
  have hp : (0 : Int) < 2 ^ (n - 1) := by positivity
  have habs : (x.toInt.tdiv y.toInt).natAbs ≤ x.toInt.natAbs := by
    rw [Int.natAbs_tdiv]; exact Nat.div_le_self _ _
  refine toInt_ofInt_of_range hn ?_ ?_
  · omega
  · by_contra hc
    have hq : x.toInt.tdiv y.toInt = 2 ^ (n - 1) := by omega
    have hxm : x.toInt = -2 ^ (n - 1) := by omega
    refine h' ⟨hxm, ?_⟩
    rw [hxm, Int.neg_tdiv] at hq
    rcases lt_trichotomy y.toInt 0 with hy | hy | hy
    · by_contra hy1
      obtain ⟨m, hm⟩ : ∃ m : Int, y.toInt = -m := ⟨-y.toInt, by omega⟩
      rw [hm, Int.tdiv_neg, neg_neg, Int.tdiv_eq_ediv_of_nonneg hp.le] at hq
      have : (2 ^ (n - 1) : Int) / m < 2 ^ (n - 1) := Int.ediv_lt_self_of_pos_of_ne_one (by omega) (by omega)
      omega
    · rw [hy, Int.tdiv_zero] at hq; omega
    · rw [Int.tdiv_eq_ediv_of_nonneg hp.le] at hq
      have : 0 ≤ (2 ^ (n - 1) : Int) / y.toInt := Int.ediv_nonneg hp.le hy.le
      omega

/-- The signed remainder is exact. -/
theorem remI_toInt {n : Nat} (hn : 0 < n) (x y : BitVec n) :
    (BitVec.ofInt n (x.toInt.tmod y.toInt)).toInt = x.toInt.tmod y.toInt := by
  have hx1 := neg_pow_le_toInt x
  have hx2 := toInt_lt_pow x
  have hp : (0 : Int) < 2 ^ (n - 1) := by positivity
  have habs : (x.toInt.tmod y.toInt).natAbs ≤ x.toInt.natAbs := by
    rw [Int.natAbs_tmod]; exact Nat.mod_le _ _
  rcases le_or_gt 0 x.toInt with h | h
  · have := Int.tmod_nonneg y.toInt h
    exact toInt_ofInt_of_range hn (by omega) (by omega)
  · have : x.toInt.tmod y.toInt ≤ 0 := by
      have := Int.tmod_nonneg y.toInt (a := -x.toInt) (by omega)
      rw [Int.neg_tmod] at this; omega
    exact toInt_ofInt_of_range hn (by omega) (by omega)

/-! ## Shifts -/

theorem shiftElem_over {op : ShiftOp} {n : Nat} {a : BitVec n} {count : Byte} (h : n ≤ count.toNat) :
    shiftElem op a count = Config.shiftOver op n a count.toNat := by
  simp only [shiftElem]; rw [if_neg (by omega)]

theorem shiftElem_lshift {n : Nat} {a : BitVec n} {count : Byte} (h : count.toNat < n) :
    (shiftElem .lshift a count).toNat = a.toNat * 2 ^ count.toNat % 2 ^ n := by
  simp only [shiftElem, if_pos h, BitVec.toNat_ofNat]

theorem shiftElem_rshiftu {n : Nat} {a : BitVec n} {count : Byte} (h : count.toNat < n) :
    (shiftElem .rshiftu a count).toNat = a.toNat / 2 ^ count.toNat := by
  simp only [shiftElem, if_pos h, BitVec.toNat_ofNat]
  exact Nat.mod_eq_of_lt (Nat.lt_of_le_of_lt (Nat.div_le_self _ _) a.isLt)

theorem shiftElem_rshifti {n : Nat} {a : BitVec n} {count : Byte} (h : count.toNat < n) :
    (shiftElem .rshifti a count).toInt = a.toInt / 2 ^ count.toNat := by
  have hn : 0 < n := by omega
  have h1 := neg_pow_le_toInt a
  have h2 := toInt_lt_pow a
  have hp : (0 : Int) < 2 ^ count.toNat := by positivity
  have hp1 : (0 : Int) < 2 ^ (n - 1) := by positivity
  simp only [shiftElem, if_pos h]
  rw [Int.fdiv_eq_ediv_of_nonneg _ hp.le]
  refine toInt_ofInt_of_range hn ?_ ?_
  · rw [Int.le_ediv_iff_mul_le hp]; nlinarith
  · rw [Int.ediv_lt_iff_lt_mul hp]; nlinarith

end Sys2Proof.Machine
end

