-- ==== Sys2Proof/Laws/PerInstr.lean ====
section
/-! SUPPORT. Per instruction: the row of the op code table at its number builds it back from the bytes of its immediate
(spec 30_encoding.md R91, R95). -/

namespace Sys2Proof.Laws.TableRow

open Sys2Proof Sys2Proof.Machine

/-- The instruction's own row of the table: it has the immediate's length, and builds the instruction from it. -/
def Statement (i : Instr) : Prop :=
  ∃ row, opTable[i.number]? = some row ∧ row.immLen = i.immBytes.length ∧ row.build (leNat i.immBytes) = i

theorem ofNat_leNat8 (v : BitVec 8) : BitVec.ofNat 8 (leNat (leBytes 1 v.toNat)) = v := by
  rw [leNat_leBytes, Nat.mod_eq_of_lt (by have := v.isLt; omega)]; simp

theorem ofNat_leNat16 (v : BitVec 16) : BitVec.ofNat 16 (leNat (leBytes 2 v.toNat)) = v := by
  rw [leNat_leBytes, Nat.mod_eq_of_lt (by have := v.isLt; omega)]; simp

theorem ofNat_leNat32 (v : BitVec 32) : BitVec.ofNat 32 (leNat (leBytes 4 v.toNat)) = v := by
  rw [leNat_leBytes, Nat.mod_eq_of_lt (by have := v.isLt; omega)]; simp

theorem ofNat_leNat64 (v : BitVec 64) : BitVec.ofNat 64 (leNat (leBytes 8 v.toNat)) = v := by
  rw [leNat_leBytes, Nat.mod_eq_of_lt (by have := v.isLt; omega)]; simp

theorem push8 (imm : BitVec 8) : Statement (.push8 imm) := ⟨_, rfl, rfl, congrArg Instr.push8 (ofNat_leNat8 imm)⟩
theorem push8asu16 (imm : BitVec 8) : Statement (.push8asu16 imm) := ⟨_, rfl, rfl, congrArg Instr.push8asu16 (ofNat_leNat8 imm)⟩
theorem push8asu32 (imm : BitVec 8) : Statement (.push8asu32 imm) := ⟨_, rfl, rfl, congrArg Instr.push8asu32 (ofNat_leNat8 imm)⟩
theorem push8asu64 (imm : BitVec 8) : Statement (.push8asu64 imm) := ⟨_, rfl, rfl, congrArg Instr.push8asu64 (ofNat_leNat8 imm)⟩
theorem push8asi16 (imm : BitVec 8) : Statement (.push8asi16 imm) := ⟨_, rfl, rfl, congrArg Instr.push8asi16 (ofNat_leNat8 imm)⟩
theorem push8asi32 (imm : BitVec 8) : Statement (.push8asi32 imm) := ⟨_, rfl, rfl, congrArg Instr.push8asi32 (ofNat_leNat8 imm)⟩
theorem push8asi64 (imm : BitVec 8) : Statement (.push8asi64 imm) := ⟨_, rfl, rfl, congrArg Instr.push8asi64 (ofNat_leNat8 imm)⟩
theorem push16 (imm : BitVec 16) : Statement (.push16 imm) := ⟨_, rfl, rfl, congrArg Instr.push16 (ofNat_leNat16 imm)⟩
theorem push16asu32 (imm : BitVec 16) : Statement (.push16asu32 imm) := ⟨_, rfl, rfl, congrArg Instr.push16asu32 (ofNat_leNat16 imm)⟩
theorem push16asu64 (imm : BitVec 16) : Statement (.push16asu64 imm) := ⟨_, rfl, rfl, congrArg Instr.push16asu64 (ofNat_leNat16 imm)⟩
theorem push16asi32 (imm : BitVec 16) : Statement (.push16asi32 imm) := ⟨_, rfl, rfl, congrArg Instr.push16asi32 (ofNat_leNat16 imm)⟩
theorem push16asi64 (imm : BitVec 16) : Statement (.push16asi64 imm) := ⟨_, rfl, rfl, congrArg Instr.push16asi64 (ofNat_leNat16 imm)⟩
theorem push32 (imm : BitVec 32) : Statement (.push32 imm) := ⟨_, rfl, rfl, congrArg Instr.push32 (ofNat_leNat32 imm)⟩
theorem push32asu64 (imm : BitVec 32) : Statement (.push32asu64 imm) := ⟨_, rfl, rfl, congrArg Instr.push32asu64 (ofNat_leNat32 imm)⟩
theorem push32asi64 (imm : BitVec 32) : Statement (.push32asi64 imm) := ⟨_, rfl, rfl, congrArg Instr.push32asi64 (ofNat_leNat32 imm)⟩
theorem push64 (imm : BitVec 64) : Statement (.push64 imm) := ⟨_, rfl, rfl, congrArg Instr.push64 (ofNat_leNat64 imm)⟩
theorem pop8 : Statement .pop8 := ⟨_, rfl, rfl, rfl⟩
theorem pop16 : Statement .pop16 := ⟨_, rfl, rfl, rfl⟩
theorem pop32 : Statement .pop32 := ⟨_, rfl, rfl, rfl⟩
theorem pop64 : Statement .pop64 := ⟨_, rfl, rfl, rfl⟩
theorem dup8 : Statement .dup8 := ⟨_, rfl, rfl, rfl⟩
theorem dup16 : Statement .dup16 := ⟨_, rfl, rfl, rfl⟩
theorem dup32 : Statement .dup32 := ⟨_, rfl, rfl, rfl⟩
theorem dup64 : Statement .dup64 := ⟨_, rfl, rfl, rfl⟩
theorem set8 : Statement .set8 := ⟨_, rfl, rfl, rfl⟩
theorem set16 : Statement .set16 := ⟨_, rfl, rfl, rfl⟩
theorem set32 : Statement .set32 := ⟨_, rfl, rfl, rfl⟩
theorem set64 : Statement .set64 := ⟨_, rfl, rfl, rfl⟩
theorem prom8u16 : Statement .prom8u16 := ⟨_, rfl, rfl, rfl⟩
theorem prom8u32 : Statement .prom8u32 := ⟨_, rfl, rfl, rfl⟩
theorem prom8u64 : Statement .prom8u64 := ⟨_, rfl, rfl, rfl⟩
theorem prom8i16 : Statement .prom8i16 := ⟨_, rfl, rfl, rfl⟩
theorem prom8i32 : Statement .prom8i32 := ⟨_, rfl, rfl, rfl⟩
theorem prom8i64 : Statement .prom8i64 := ⟨_, rfl, rfl, rfl⟩
theorem prom16u32 : Statement .prom16u32 := ⟨_, rfl, rfl, rfl⟩
theorem prom16u64 : Statement .prom16u64 := ⟨_, rfl, rfl, rfl⟩
theorem prom16i32 : Statement .prom16i32 := ⟨_, rfl, rfl, rfl⟩
theorem prom16i64 : Statement .prom16i64 := ⟨_, rfl, rfl, rfl⟩
theorem prom32u64 : Statement .prom32u64 := ⟨_, rfl, rfl, rfl⟩
theorem prom32i64 : Statement .prom32i64 := ⟨_, rfl, rfl, rfl⟩
theorem dem64to16 : Statement .dem64to16 := ⟨_, rfl, rfl, rfl⟩
theorem dem64to8 : Statement .dem64to8 := ⟨_, rfl, rfl, rfl⟩
theorem dem32to8 : Statement .dem32to8 := ⟨_, rfl, rfl, rfl⟩
theorem add8 : Statement .add8 := ⟨_, rfl, rfl, rfl⟩
theorem add16 : Statement .add16 := ⟨_, rfl, rfl, rfl⟩
theorem add32 : Statement .add32 := ⟨_, rfl, rfl, rfl⟩
theorem add64 : Statement .add64 := ⟨_, rfl, rfl, rfl⟩
theorem sub8 : Statement .sub8 := ⟨_, rfl, rfl, rfl⟩
theorem sub16 : Statement .sub16 := ⟨_, rfl, rfl, rfl⟩
theorem sub32 : Statement .sub32 := ⟨_, rfl, rfl, rfl⟩
theorem sub64 : Statement .sub64 := ⟨_, rfl, rfl, rfl⟩
theorem subr8 : Statement .subr8 := ⟨_, rfl, rfl, rfl⟩
theorem subr16 : Statement .subr16 := ⟨_, rfl, rfl, rfl⟩
theorem subr32 : Statement .subr32 := ⟨_, rfl, rfl, rfl⟩
theorem subr64 : Statement .subr64 := ⟨_, rfl, rfl, rfl⟩
theorem mulu8 : Statement .mulu8 := ⟨_, rfl, rfl, rfl⟩
theorem mulu16 : Statement .mulu16 := ⟨_, rfl, rfl, rfl⟩
theorem mulu32 : Statement .mulu32 := ⟨_, rfl, rfl, rfl⟩
theorem mulu64 : Statement .mulu64 := ⟨_, rfl, rfl, rfl⟩
theorem muli8 : Statement .muli8 := ⟨_, rfl, rfl, rfl⟩
theorem muli16 : Statement .muli16 := ⟨_, rfl, rfl, rfl⟩
theorem muli32 : Statement .muli32 := ⟨_, rfl, rfl, rfl⟩
theorem muli64 : Statement .muli64 := ⟨_, rfl, rfl, rfl⟩
theorem divu8 : Statement .divu8 := ⟨_, rfl, rfl, rfl⟩
theorem divu16 : Statement .divu16 := ⟨_, rfl, rfl, rfl⟩
theorem divu32 : Statement .divu32 := ⟨_, rfl, rfl, rfl⟩
theorem divu64 : Statement .divu64 := ⟨_, rfl, rfl, rfl⟩
theorem divru8 : Statement .divru8 := ⟨_, rfl, rfl, rfl⟩
theorem divru16 : Statement .divru16 := ⟨_, rfl, rfl, rfl⟩
theorem divru32 : Statement .divru32 := ⟨_, rfl, rfl, rfl⟩
theorem divru64 : Statement .divru64 := ⟨_, rfl, rfl, rfl⟩
theorem divi8 : Statement .divi8 := ⟨_, rfl, rfl, rfl⟩
theorem divi16 : Statement .divi16 := ⟨_, rfl, rfl, rfl⟩
theorem divi32 : Statement .divi32 := ⟨_, rfl, rfl, rfl⟩
theorem divi64 : Statement .divi64 := ⟨_, rfl, rfl, rfl⟩
theorem divri8 : Statement .divri8 := ⟨_, rfl, rfl, rfl⟩
theorem divri16 : Statement .divri16 := ⟨_, rfl, rfl, rfl⟩
theorem divri32 : Statement .divri32 := ⟨_, rfl, rfl, rfl⟩
theorem divri64 : Statement .divri64 := ⟨_, rfl, rfl, rfl⟩
theorem modu8 : Statement .modu8 := ⟨_, rfl, rfl, rfl⟩
theorem modu16 : Statement .modu16 := ⟨_, rfl, rfl, rfl⟩
theorem modu32 : Statement .modu32 := ⟨_, rfl, rfl, rfl⟩
theorem modu64 : Statement .modu64 := ⟨_, rfl, rfl, rfl⟩
theorem modru8 : Statement .modru8 := ⟨_, rfl, rfl, rfl⟩
theorem modru16 : Statement .modru16 := ⟨_, rfl, rfl, rfl⟩
theorem modru32 : Statement .modru32 := ⟨_, rfl, rfl, rfl⟩
theorem modru64 : Statement .modru64 := ⟨_, rfl, rfl, rfl⟩
theorem modi8 : Statement .modi8 := ⟨_, rfl, rfl, rfl⟩
theorem modi16 : Statement .modi16 := ⟨_, rfl, rfl, rfl⟩
theorem modi32 : Statement .modi32 := ⟨_, rfl, rfl, rfl⟩
theorem modi64 : Statement .modi64 := ⟨_, rfl, rfl, rfl⟩
theorem modri8 : Statement .modri8 := ⟨_, rfl, rfl, rfl⟩
theorem modri16 : Statement .modri16 := ⟨_, rfl, rfl, rfl⟩
theorem modri32 : Statement .modri32 := ⟨_, rfl, rfl, rfl⟩
theorem modri64 : Statement .modri64 := ⟨_, rfl, rfl, rfl⟩
theorem lshift8 : Statement .lshift8 := ⟨_, rfl, rfl, rfl⟩
theorem lshift16 : Statement .lshift16 := ⟨_, rfl, rfl, rfl⟩
theorem lshift32 : Statement .lshift32 := ⟨_, rfl, rfl, rfl⟩
theorem lshift64 : Statement .lshift64 := ⟨_, rfl, rfl, rfl⟩
theorem rshiftu8 : Statement .rshiftu8 := ⟨_, rfl, rfl, rfl⟩
theorem rshiftu16 : Statement .rshiftu16 := ⟨_, rfl, rfl, rfl⟩
theorem rshiftu32 : Statement .rshiftu32 := ⟨_, rfl, rfl, rfl⟩
theorem rshiftu64 : Statement .rshiftu64 := ⟨_, rfl, rfl, rfl⟩
theorem rshifti8 : Statement .rshifti8 := ⟨_, rfl, rfl, rfl⟩
theorem rshifti16 : Statement .rshifti16 := ⟨_, rfl, rfl, rfl⟩
theorem rshifti32 : Statement .rshifti32 := ⟨_, rfl, rfl, rfl⟩
theorem rshifti64 : Statement .rshifti64 := ⟨_, rfl, rfl, rfl⟩
theorem band8 : Statement .band8 := ⟨_, rfl, rfl, rfl⟩
theorem band16 : Statement .band16 := ⟨_, rfl, rfl, rfl⟩
theorem band32 : Statement .band32 := ⟨_, rfl, rfl, rfl⟩
theorem band64 : Statement .band64 := ⟨_, rfl, rfl, rfl⟩
theorem bor8 : Statement .bor8 := ⟨_, rfl, rfl, rfl⟩
theorem bor16 : Statement .bor16 := ⟨_, rfl, rfl, rfl⟩
theorem bor32 : Statement .bor32 := ⟨_, rfl, rfl, rfl⟩
theorem bor64 : Statement .bor64 := ⟨_, rfl, rfl, rfl⟩
theorem bxor8 : Statement .bxor8 := ⟨_, rfl, rfl, rfl⟩
theorem bxor16 : Statement .bxor16 := ⟨_, rfl, rfl, rfl⟩
theorem bxor32 : Statement .bxor32 := ⟨_, rfl, rfl, rfl⟩
theorem bxor64 : Statement .bxor64 := ⟨_, rfl, rfl, rfl⟩
theorem binv8 : Statement .binv8 := ⟨_, rfl, rfl, rfl⟩
theorem binv16 : Statement .binv16 := ⟨_, rfl, rfl, rfl⟩
theorem binv32 : Statement .binv32 := ⟨_, rfl, rfl, rfl⟩
theorem binv64 : Statement .binv64 := ⟨_, rfl, rfl, rfl⟩
theorem land8 : Statement .land8 := ⟨_, rfl, rfl, rfl⟩
theorem land16 : Statement .land16 := ⟨_, rfl, rfl, rfl⟩
theorem land32 : Statement .land32 := ⟨_, rfl, rfl, rfl⟩
theorem land64 : Statement .land64 := ⟨_, rfl, rfl, rfl⟩
theorem lor8 : Statement .lor8 := ⟨_, rfl, rfl, rfl⟩
theorem lor16 : Statement .lor16 := ⟨_, rfl, rfl, rfl⟩
theorem lor32 : Statement .lor32 := ⟨_, rfl, rfl, rfl⟩
theorem lor64 : Statement .lor64 := ⟨_, rfl, rfl, rfl⟩
theorem linv8 : Statement .linv8 := ⟨_, rfl, rfl, rfl⟩
theorem linv16 : Statement .linv16 := ⟨_, rfl, rfl, rfl⟩
theorem linv32 : Statement .linv32 := ⟨_, rfl, rfl, rfl⟩
theorem linv64 : Statement .linv64 := ⟨_, rfl, rfl, rfl⟩
theorem ceq8 : Statement .ceq8 := ⟨_, rfl, rfl, rfl⟩
theorem ceq16 : Statement .ceq16 := ⟨_, rfl, rfl, rfl⟩
theorem ceq32 : Statement .ceq32 := ⟨_, rfl, rfl, rfl⟩
theorem ceq64 : Statement .ceq64 := ⟨_, rfl, rfl, rfl⟩
theorem cne8 : Statement .cne8 := ⟨_, rfl, rfl, rfl⟩
theorem cne16 : Statement .cne16 := ⟨_, rfl, rfl, rfl⟩
theorem cne32 : Statement .cne32 := ⟨_, rfl, rfl, rfl⟩
theorem cne64 : Statement .cne64 := ⟨_, rfl, rfl, rfl⟩
theorem cgtu8 : Statement .cgtu8 := ⟨_, rfl, rfl, rfl⟩
theorem cgtu16 : Statement .cgtu16 := ⟨_, rfl, rfl, rfl⟩
theorem cgtu32 : Statement .cgtu32 := ⟨_, rfl, rfl, rfl⟩
theorem cgtu64 : Statement .cgtu64 := ⟨_, rfl, rfl, rfl⟩
theorem cgti8 : Statement .cgti8 := ⟨_, rfl, rfl, rfl⟩
theorem cgti16 : Statement .cgti16 := ⟨_, rfl, rfl, rfl⟩
theorem cgti32 : Statement .cgti32 := ⟨_, rfl, rfl, rfl⟩
theorem cgti64 : Statement .cgti64 := ⟨_, rfl, rfl, rfl⟩
theorem cltu8 : Statement .cltu8 := ⟨_, rfl, rfl, rfl⟩
theorem cltu16 : Statement .cltu16 := ⟨_, rfl, rfl, rfl⟩
theorem cltu32 : Statement .cltu32 := ⟨_, rfl, rfl, rfl⟩
theorem cltu64 : Statement .cltu64 := ⟨_, rfl, rfl, rfl⟩
theorem clti8 : Statement .clti8 := ⟨_, rfl, rfl, rfl⟩
theorem clti16 : Statement .clti16 := ⟨_, rfl, rfl, rfl⟩
theorem clti32 : Statement .clti32 := ⟨_, rfl, rfl, rfl⟩
theorem clti64 : Statement .clti64 := ⟨_, rfl, rfl, rfl⟩
theorem cgteu8 : Statement .cgteu8 := ⟨_, rfl, rfl, rfl⟩
theorem cgteu16 : Statement .cgteu16 := ⟨_, rfl, rfl, rfl⟩
theorem cgteu32 : Statement .cgteu32 := ⟨_, rfl, rfl, rfl⟩
theorem cgteu64 : Statement .cgteu64 := ⟨_, rfl, rfl, rfl⟩
theorem cgtei8 : Statement .cgtei8 := ⟨_, rfl, rfl, rfl⟩
theorem cgtei16 : Statement .cgtei16 := ⟨_, rfl, rfl, rfl⟩
theorem cgtei32 : Statement .cgtei32 := ⟨_, rfl, rfl, rfl⟩
theorem cgtei64 : Statement .cgtei64 := ⟨_, rfl, rfl, rfl⟩
theorem clteu8 : Statement .clteu8 := ⟨_, rfl, rfl, rfl⟩
theorem clteu16 : Statement .clteu16 := ⟨_, rfl, rfl, rfl⟩
theorem clteu32 : Statement .clteu32 := ⟨_, rfl, rfl, rfl⟩
theorem clteu64 : Statement .clteu64 := ⟨_, rfl, rfl, rfl⟩
theorem cltei8 : Statement .cltei8 := ⟨_, rfl, rfl, rfl⟩
theorem cltei16 : Statement .cltei16 := ⟨_, rfl, rfl, rfl⟩
theorem cltei32 : Statement .cltei32 := ⟨_, rfl, rfl, rfl⟩
theorem cltei64 : Statement .cltei64 := ⟨_, rfl, rfl, rfl⟩
theorem call (imm : BitVec 64) : Statement (.call imm) := ⟨_, rfl, rfl, congrArg Instr.call (ofNat_leNat64 imm)⟩
theorem calls : Statement .calls := ⟨_, rfl, rfl, rfl⟩
theorem ret : Statement .ret := ⟨_, rfl, rfl, rfl⟩
theorem jmp (imm : BitVec 64) : Statement (.jmp imm) := ⟨_, rfl, rfl, congrArg Instr.jmp (ofNat_leNat64 imm)⟩
theorem jmps : Statement .jmps := ⟨_, rfl, rfl, rfl⟩
theorem rjmpi8 (imm : BitVec 8) : Statement (.rjmpi8 imm) := ⟨_, rfl, rfl, congrArg Instr.rjmpi8 (ofNat_leNat8 imm)⟩
theorem rjmpi16 (imm : BitVec 16) : Statement (.rjmpi16 imm) := ⟨_, rfl, rfl, congrArg Instr.rjmpi16 (ofNat_leNat16 imm)⟩
theorem rjmpi32 (imm : BitVec 32) : Statement (.rjmpi32 imm) := ⟨_, rfl, rfl, congrArg Instr.rjmpi32 (ofNat_leNat32 imm)⟩
theorem brz8 (imm : BitVec 64) : Statement (.brz8 imm) := ⟨_, rfl, rfl, congrArg Instr.brz8 (ofNat_leNat64 imm)⟩
theorem brz16 (imm : BitVec 64) : Statement (.brz16 imm) := ⟨_, rfl, rfl, congrArg Instr.brz16 (ofNat_leNat64 imm)⟩
theorem brz32 (imm : BitVec 64) : Statement (.brz32 imm) := ⟨_, rfl, rfl, congrArg Instr.brz32 (ofNat_leNat64 imm)⟩
theorem brz64 (imm : BitVec 64) : Statement (.brz64 imm) := ⟨_, rfl, rfl, congrArg Instr.brz64 (ofNat_leNat64 imm)⟩
theorem rbrz8i8 (imm : BitVec 8) : Statement (.rbrz8i8 imm) := ⟨_, rfl, rfl, congrArg Instr.rbrz8i8 (ofNat_leNat8 imm)⟩
theorem rbrz8i16 (imm : BitVec 16) : Statement (.rbrz8i16 imm) := ⟨_, rfl, rfl, congrArg Instr.rbrz8i16 (ofNat_leNat16 imm)⟩
theorem rbrz8i32 (imm : BitVec 32) : Statement (.rbrz8i32 imm) := ⟨_, rfl, rfl, congrArg Instr.rbrz8i32 (ofNat_leNat32 imm)⟩
theorem rbrz16i8 (imm : BitVec 8) : Statement (.rbrz16i8 imm) := ⟨_, rfl, rfl, congrArg Instr.rbrz16i8 (ofNat_leNat8 imm)⟩
theorem rbrz16i16 (imm : BitVec 16) : Statement (.rbrz16i16 imm) := ⟨_, rfl, rfl, congrArg Instr.rbrz16i16 (ofNat_leNat16 imm)⟩
theorem rbrz16i32 (imm : BitVec 32) : Statement (.rbrz16i32 imm) := ⟨_, rfl, rfl, congrArg Instr.rbrz16i32 (ofNat_leNat32 imm)⟩
theorem rbrz32i8 (imm : BitVec 8) : Statement (.rbrz32i8 imm) := ⟨_, rfl, rfl, congrArg Instr.rbrz32i8 (ofNat_leNat8 imm)⟩
theorem rbrz32i16 (imm : BitVec 16) : Statement (.rbrz32i16 imm) := ⟨_, rfl, rfl, congrArg Instr.rbrz32i16 (ofNat_leNat16 imm)⟩
theorem rbrz32i32 (imm : BitVec 32) : Statement (.rbrz32i32 imm) := ⟨_, rfl, rfl, congrArg Instr.rbrz32i32 (ofNat_leNat32 imm)⟩
theorem rbrz64i8 (imm : BitVec 8) : Statement (.rbrz64i8 imm) := ⟨_, rfl, rfl, congrArg Instr.rbrz64i8 (ofNat_leNat8 imm)⟩
theorem rbrz64i16 (imm : BitVec 16) : Statement (.rbrz64i16 imm) := ⟨_, rfl, rfl, congrArg Instr.rbrz64i16 (ofNat_leNat16 imm)⟩
theorem rbrz64i32 (imm : BitVec 32) : Statement (.rbrz64i32 imm) := ⟨_, rfl, rfl, congrArg Instr.rbrz64i32 (ofNat_leNat32 imm)⟩
theorem load8 : Statement .load8 := ⟨_, rfl, rfl, rfl⟩
theorem load16 : Statement .load16 := ⟨_, rfl, rfl, rfl⟩
theorem load32 : Statement .load32 := ⟨_, rfl, rfl, rfl⟩
theorem load64 : Statement .load64 := ⟨_, rfl, rfl, rfl⟩
theorem loadpop8 : Statement .loadpop8 := ⟨_, rfl, rfl, rfl⟩
theorem loadpop16 : Statement .loadpop16 := ⟨_, rfl, rfl, rfl⟩
theorem loadpop32 : Statement .loadpop32 := ⟨_, rfl, rfl, rfl⟩
theorem loadpop64 : Statement .loadpop64 := ⟨_, rfl, rfl, rfl⟩
theorem loadsfp8 : Statement .loadsfp8 := ⟨_, rfl, rfl, rfl⟩
theorem loadsfp16 : Statement .loadsfp16 := ⟨_, rfl, rfl, rfl⟩
theorem loadsfp32 : Statement .loadsfp32 := ⟨_, rfl, rfl, rfl⟩
theorem loadsfp64 : Statement .loadsfp64 := ⟨_, rfl, rfl, rfl⟩
theorem loadpopsfp8 : Statement .loadpopsfp8 := ⟨_, rfl, rfl, rfl⟩
theorem loadpopsfp16 : Statement .loadpopsfp16 := ⟨_, rfl, rfl, rfl⟩
theorem loadpopsfp32 : Statement .loadpopsfp32 := ⟨_, rfl, rfl, rfl⟩
theorem loadpopsfp64 : Statement .loadpopsfp64 := ⟨_, rfl, rfl, rfl⟩
theorem store8 : Statement .store8 := ⟨_, rfl, rfl, rfl⟩
theorem store16 : Statement .store16 := ⟨_, rfl, rfl, rfl⟩
theorem store32 : Statement .store32 := ⟨_, rfl, rfl, rfl⟩
theorem store64 : Statement .store64 := ⟨_, rfl, rfl, rfl⟩
theorem storepop8 : Statement .storepop8 := ⟨_, rfl, rfl, rfl⟩
theorem storepop16 : Statement .storepop16 := ⟨_, rfl, rfl, rfl⟩
theorem storepop32 : Statement .storepop32 := ⟨_, rfl, rfl, rfl⟩
theorem storepop64 : Statement .storepop64 := ⟨_, rfl, rfl, rfl⟩
theorem storesfp8 : Statement .storesfp8 := ⟨_, rfl, rfl, rfl⟩
theorem storesfp16 : Statement .storesfp16 := ⟨_, rfl, rfl, rfl⟩
theorem storesfp32 : Statement .storesfp32 := ⟨_, rfl, rfl, rfl⟩
theorem storesfp64 : Statement .storesfp64 := ⟨_, rfl, rfl, rfl⟩
theorem storepopsfp8 : Statement .storepopsfp8 := ⟨_, rfl, rfl, rfl⟩
theorem storepopsfp16 : Statement .storepopsfp16 := ⟨_, rfl, rfl, rfl⟩
theorem storepopsfp32 : Statement .storepopsfp32 := ⟨_, rfl, rfl, rfl⟩
theorem storepopsfp64 : Statement .storepopsfp64 := ⟨_, rfl, rfl, rfl⟩
theorem storer8 : Statement .storer8 := ⟨_, rfl, rfl, rfl⟩
theorem storer16 : Statement .storer16 := ⟨_, rfl, rfl, rfl⟩
theorem storer32 : Statement .storer32 := ⟨_, rfl, rfl, rfl⟩
theorem storer64 : Statement .storer64 := ⟨_, rfl, rfl, rfl⟩
theorem storerpop8 : Statement .storerpop8 := ⟨_, rfl, rfl, rfl⟩
theorem storerpop16 : Statement .storerpop16 := ⟨_, rfl, rfl, rfl⟩
theorem storerpop32 : Statement .storerpop32 := ⟨_, rfl, rfl, rfl⟩
theorem storerpop64 : Statement .storerpop64 := ⟨_, rfl, rfl, rfl⟩
theorem storersfp8 : Statement .storersfp8 := ⟨_, rfl, rfl, rfl⟩
theorem storersfp16 : Statement .storersfp16 := ⟨_, rfl, rfl, rfl⟩
theorem storersfp32 : Statement .storersfp32 := ⟨_, rfl, rfl, rfl⟩
theorem storersfp64 : Statement .storersfp64 := ⟨_, rfl, rfl, rfl⟩
theorem storerpopsfp8 : Statement .storerpopsfp8 := ⟨_, rfl, rfl, rfl⟩
theorem storerpopsfp16 : Statement .storerpopsfp16 := ⟨_, rfl, rfl, rfl⟩
theorem storerpopsfp32 : Statement .storerpopsfp32 := ⟨_, rfl, rfl, rfl⟩
theorem storerpopsfp64 : Statement .storerpopsfp64 := ⟨_, rfl, rfl, rfl⟩
theorem setsbp (imm : BitVec 64) : Statement (.setsbp imm) := ⟨_, rfl, rfl, congrArg Instr.setsbp (ofNat_leNat64 imm)⟩
theorem setsfp (imm : BitVec 64) : Statement (.setsfp imm) := ⟨_, rfl, rfl, congrArg Instr.setsfp (ofNat_leNat64 imm)⟩
theorem setsp (imm : BitVec 64) : Statement (.setsp imm) := ⟨_, rfl, rfl, congrArg Instr.setsp (ofNat_leNat64 imm)⟩
theorem setslp (imm : BitVec 64) : Statement (.setslp imm) := ⟨_, rfl, rfl, congrArg Instr.setslp (ofNat_leNat64 imm)⟩
theorem nop : Statement .nop := ⟨_, rfl, rfl, rfl⟩
theorem ext : Statement .ext := ⟨_, rfl, rfl, rfl⟩
theorem halt : Statement .halt := ⟨_, rfl, rfl, rfl⟩
theorem invalid : Statement .invalid := ⟨_, rfl, rfl, rfl⟩

end Sys2Proof.Laws.TableRow
end

