-- ==== Sys2Proof/Laws/Decode.lean ====
section
/-! SUPPORT. The laws of decoding: what each row of the op code table builds, and what an op code byte selects. -/

namespace Sys2Proof.Laws

open Sys2Proof Sys2Proof.Machine

/-- The low n bytes of a number do not depend on its higher bytes. -/
theorem leBytes_mod (n v : Nat) : leBytes n (v % 256 ^ n) = leBytes n v := by
  induction n generalizing v with
  | zero => rfl
  | succ n ih =>
    have h1 : v % 256 ^ (n + 1) / 256 = v / 256 % 256 ^ n := by
      rw [Nat.pow_succ', Nat.mod_mul_right_div_self]
    have h2 : BitVec.ofNat 8 (v % 256 ^ (n + 1)) = BitVec.ofNat 8 v := by
      apply BitVec.eq_of_toNat_eq
      simp only [BitVec.toNat_ofNat]
      have hd : 2 ^ 8 ∣ 256 ^ (n + 1) := ⟨256 ^ n, by rw [Nat.pow_succ']; norm_num⟩
      exact Nat.mod_mod_of_dvd v hd
    rw [leBytes, h1, h2, ih, leBytes]

/-- A row of the table at place n builds instructions of number n, with the bytes of the immediate it is given. -/
def RowOk (n : Nat) (row : OpRow) : Prop :=
  ∀ v, (row.build v).number = n ∧ (row.build v).immBytes = leBytes row.immLen v

/-- The rows of a list, from place n on. -/
def RowsOk : Nat → List OpRow → Prop
  | _, [] => True
  | n, row :: rows => RowOk n row ∧ RowsOk (n + 1) rows

theorem rowOk_op {n : Nat} {i : Instr} (h : i.number = n) (h' : i.immBytes = []) : RowOk n (.op i) :=
  fun _ => ⟨h, h'⟩

theorem rowOk_imm8 {n : Nat} {f : BitVec 8 → Instr} (h : ∀ v, (f v).number = n)
    (h' : ∀ v, (f v).immBytes = leBytes 1 v.toNat) : RowOk n (.imm8 f) := fun v =>
  ⟨h _, by rw [OpRow.build, h', BitVec.toNat_ofNat]; exact leBytes_mod 1 v⟩

theorem rowOk_imm16 {n : Nat} {f : BitVec 16 → Instr} (h : ∀ v, (f v).number = n)
    (h' : ∀ v, (f v).immBytes = leBytes 2 v.toNat) : RowOk n (.imm16 f) := fun v =>
  ⟨h _, by rw [OpRow.build, h', BitVec.toNat_ofNat]; exact leBytes_mod 2 v⟩

theorem rowOk_imm32 {n : Nat} {f : BitVec 32 → Instr} (h : ∀ v, (f v).number = n)
    (h' : ∀ v, (f v).immBytes = leBytes 4 v.toNat) : RowOk n (.imm32 f) := fun v =>
  ⟨h _, by rw [OpRow.build, h', BitVec.toNat_ofNat]; exact leBytes_mod 4 v⟩

theorem rowOk_imm64 {n : Nat} {f : BitVec 64 → Instr} (h : ∀ v, (f v).number = n)
    (h' : ∀ v, (f v).immBytes = leBytes 8 v.toNat) : RowOk n (.imm64 f) := fun v =>
  ⟨h _, by rw [OpRow.build, h', BitVec.toNat_ofNat]; exact leBytes_mod 8 v⟩

theorem RowsOk.get {n k : Nat} {rows : List OpRow} {row : OpRow} (h : RowsOk n rows) (hk : rows[k]? = some row) :
    RowOk (n + k) row := by
  induction rows generalizing n k with
  | nil => simp at hk
  | cons r rows ih =>
    rcases k with _ | k
    · simp at hk; exact hk ▸ h.1
    · have := ih h.2 (by simpa using hk)
      rwa [Nat.add_right_comm, Nat.add_assoc] at this

/-- Every row of the table. -/
theorem opTable_rowsOk : RowsOk 0 opTable := by
  repeat'
    first
    | exact trivial
    | refine ⟨rowOk_op rfl rfl, ?_⟩
    | refine ⟨rowOk_imm8 (fun _ => rfl) (fun _ => rfl), ?_⟩
    | refine ⟨rowOk_imm16 (fun _ => rfl) (fun _ => rfl), ?_⟩
    | refine ⟨rowOk_imm32 (fun _ => rfl) (fun _ => rfl), ?_⟩
    | refine ⟨rowOk_imm64 (fun _ => rfl) (fun _ => rfl), ?_⟩

/-- What the row at a place builds has that number and those immediate bytes. -/
theorem opTable_build {n : Nat} {row : OpRow} (h : opTable[n]? = some row) (v : Nat) :
    (row.build v).number = n ∧ (row.build v).immBytes = leBytes row.immLen v := by
  have := opTable_rowsOk.get h v
  rwa [Nat.zero_add] at this

/-- An op code byte selects the row of the first mnemonic that has it. -/
theorem rowOf_eq_some {opc : List Byte} {b : Byte} {row : OpRow} (h : rowOf opc b = some row) :
    ∃ n, opc.idxOf? b = some n ∧ opTable[n]? = some row := by
  unfold rowOf at h
  split at h
  · cases h
  · exact ⟨_, by assumption, h⟩

/-- The table has 255 rows. -/
theorem opTable_length : opTable.length = 255 := by
  simp only [opTable, List.length_append]
  rfl

/-- The length of what a row builds. -/
theorem build_length {n : Nat} {row : OpRow} (h : opTable[n]? = some row) (v : Nat) :
    (row.build v).length = 1 + row.immLen := by
  rw [Instr.length, (opTable_build h v).2, leBytes_length]

/-- The default numbering is one byte each for the 255 mnemonics. -/
theorem opcWf_default : opcWf Config.defaultOpc = true := by
  have h : Config.defaultOpc.Nodup := by
    refine List.Nodup.map_on (fun x hx y hy e => ?_) List.nodup_range
    have e := congrArg BitVec.toNat e
    rw [List.mem_range] at hx hy
    simp only [BitVec.toNat_ofNat] at e
    omega
  have hl : Config.defaultOpc.length = 255 := by simp [Config.defaultOpc]
  rw [opcWf, hl, decide_eq_true h]; rfl

end Sys2Proof.Laws
end

