-- ==== Sys2Proof/Laws/Shapes.lean ====
section
/-! SUPPORT. What each shape of instruction can do, said once: for each, the next state where its checks pass (…_ok), and that
it otherwise raises (…_cases). -/

namespace Sys2Proof.Machine

/-- The answer is that the instruction raised. -/
def Raises (s : State) (r : Result) : Prop := ∃ c, r = .next (s.raise c)

theorem raises_error (s : State) (c : FaultCause) : Raises s (finish s (.error c)) := ⟨c, rfl⟩

/-! ## Storing an element -/

/-- The state after an element is stored at an address, with a new SP and PC. -/
def State.stored (s : State) (a : Addr) (w : Width) (v : Elem w) (sp pc : Addr) : State :=
  s.put (s.mem.storeLE a w.bytes v.toNat) sp pc

theorem stored_value (s : State) (a : Addr) (w : Width) (v : Elem w) (sp pc : Addr) :
    (s.stored a w v sp pc).elem a w = v := State.elem_of_storeLE (s := s.stored a w v sp pc) rfl

theorem stored_mem (s : State) (a : Addr) (w : Width) (v : Elem w) (sp pc : Addr) :
    SameMemBut s (s.stored a w v sp pc) a w.bytes := fun _ hx =>
  Memory.get_storeLE_of_not_within s.mem a w.bytes v.toNat w.bytes_le hx

theorem sameRest_put (s : State) (m : Memory) (sp pc : Addr) : SameRest s (s.put m sp pc) := ⟨rfl, rfl, rfl, rfl, rfl⟩

theorem leavesElem_stored (s : State) (nIn : Nat) (w : Width) (v : Elem w) (len : Nat) :
    LeavesElem s (s.stored (resultAddr s nIn w.bytes) w v (resultAddr s nIn w.bytes) (up s.pc len)) nIn w v len :=
  ⟨stored_value .., rfl, rfl, stored_mem _ _ _ _ _ _, sameRest_put ..⟩

theorem storesElem_stored (s : State) (ea : Addr) (w : Width) (v : Elem w) (nPop : Nat) :
    StoresElem s (s.stored ea w v (up s.sp nPop) (up s.pc 1)) ea w v nPop :=
  ⟨stored_value .., rfl, rfl, stored_mem _ _ _ _ _ _, sameRest_put ..⟩

theorem putElem_ok {s : State} {nIn : Nat} {w : Width} {v : Elem w} {len : Nat}
    (h : DataOk s (resultAddr s nIn w.bytes) w.bytes) :
    putElem s nIn w v len =
      .ok (s.stored (resultAddr s nIn w.bytes) w v (resultAddr s nIn w.bytes) (up s.pc len)) := by
  simp [putElem, memWrite_ok h, State.stored]

theorem putElem_cases (s : State) (nIn : Nat) (w : Width) (v : Elem w) (len : Nat) :
    DataOk s (resultAddr s nIn w.bytes) w.bytes ∨ ∃ c, putElem s nIn w v len = .error c := by
  rcases memWrite_cases s s.mem (resultAddr s nIn w.bytes) w v with ⟨-, h⟩ | ⟨c, h, -⟩
  · exact .inl h
  · exact .inr ⟨c, by simp [putElem, h]⟩

/-! ## Push, pop, dup, set -/

theorem pushElem_ok {s : State} {w : Width} {v : Elem w} {len : Nat} (h : StackOk s 0 w.bytes)
    (hr : DataOk s (resultAddr s 0 w.bytes) w.bytes) :
    pushElem w v len s =
      .next (s.stored (resultAddr s 0 w.bytes) w v (resultAddr s 0 w.bytes) (up s.pc len)) := by
  simp [pushElem, stackCheck_ok h, putElem_ok hr]

theorem pushElem_cases (s : State) (w : Width) (v : Elem w) (len : Nat) :
    (StackOk s 0 w.bytes ∧ DataOk s (resultAddr s 0 w.bytes) w.bytes) ∨ Raises s (pushElem w v len s) := by
  rcases stackCheck_cases s 0 w.bytes with ⟨hc, h⟩ | ⟨hc, -⟩ | ⟨hc, -⟩
  · rcases putElem_cases s 0 w v len with hr | ⟨c, hr⟩
    · exact .inl ⟨h, hr⟩
    · exact .inr ⟨c, by simp [pushElem, hc, hr]⟩
  all_goals exact .inr ⟨_, by simp [pushElem, hc]; rfl⟩

theorem popElem_ok {s : State} {w : Width} (h : StackOk s w.bytes 0) :
    popElem w s = .next (s.put s.mem (up s.sp w.bytes) (up s.pc 1)) := by
  simp [popElem, stackCheck_ok h]

theorem popElem_cases (s : State) (w : Width) : StackOk s w.bytes 0 ∨ Raises s (popElem w s) := by
  rcases stackCheck_cases s w.bytes 0 with ⟨-, h⟩ | ⟨hc, -⟩ | ⟨hc, -⟩
  · exact .inl h
  all_goals exact .inr ⟨_, by simp [popElem, hc]; rfl⟩

theorem dupElem_ok {s : State} {w : Width} (h : StackOk s w.bytes (2 * w.bytes)) (ha : DataOk s s.sp w.bytes)
    (hr : DataOk s (resultAddr s 0 w.bytes) w.bytes) :
    dupElem w s = .next
      (s.stored (resultAddr s 0 w.bytes) w (s.elem s.sp w) (resultAddr s 0 w.bytes) (up s.pc 1)) := by
  simp [dupElem, stackCheck_ok h, memRead_ok ha, putElem_ok hr]

theorem dupElem_cases (s : State) (w : Width) :
    (StackOk s w.bytes (2 * w.bytes) ∧ DataOk s s.sp w.bytes ∧ DataOk s (resultAddr s 0 w.bytes) w.bytes) ∨
    Raises s (dupElem w s) := by
  rcases stackCheck_cases s w.bytes (2 * w.bytes) with ⟨hc, h⟩ | ⟨hc, -⟩ | ⟨hc, -⟩
  · rcases memRead_cases s s.sp w with ⟨hm, ha⟩ | ⟨c, hm, -⟩
    · rcases putElem_cases s 0 w (s.elem s.sp w) 1 with hr | ⟨c, hr⟩
      · exact .inl ⟨h, ha, hr⟩
      · exact .inr ⟨c, by simp [dupElem, hc, hm, hr]⟩
    · exact .inr ⟨c, by simp [dupElem, hc, hm]⟩
  all_goals exact .inr ⟨_, by simp [dupElem, hc]; rfl⟩

theorem setElem_ok {s : State} {w : Width} (h : StackOk s (2 * w.bytes) w.bytes) (hb : DataOk s s.sp w.bytes)
    (hr : DataOk s (resultAddr s (2 * w.bytes) w.bytes) w.bytes) :
    setElem w s = .next (s.stored (resultAddr s (2 * w.bytes) w.bytes) w (s.elem s.sp w)
      (resultAddr s (2 * w.bytes) w.bytes) (up s.pc 1)) := by
  simp [setElem, stackCheck_ok h, memRead_ok hb, putElem_ok hr]

theorem setElem_cases (s : State) (w : Width) :
    (StackOk s (2 * w.bytes) w.bytes ∧ DataOk s s.sp w.bytes ∧
      DataOk s (resultAddr s (2 * w.bytes) w.bytes) w.bytes) ∨
    Raises s (setElem w s) := by
  rcases stackCheck_cases s (2 * w.bytes) w.bytes with ⟨hc, h⟩ | ⟨hc, -⟩ | ⟨hc, -⟩
  · rcases memRead_cases s s.sp w with ⟨hm, hb⟩ | ⟨c, hm, -⟩
    · rcases putElem_cases s (2 * w.bytes) w (s.elem s.sp w) 1 with hr | ⟨c, hr⟩
      · exact .inl ⟨h, hb, hr⟩
      · exact .inr ⟨c, by simp [setElem, hc, hm, hr]⟩
    · exact .inr ⟨c, by simp [setElem, hc, hm]⟩
  all_goals exact .inr ⟨_, by simp [setElem, hc]; rfl⟩

/-! ## One operand, two operands -/

theorem unary_ok {s : State} {wa wr : Width} (f : Elem wa → Elem wr) (h : UnaryOk s wa wr) :
    unary wa wr f s = .next (s.stored (resultAddr s wa.bytes wr.bytes) wr (f (s.elem s.sp wa))
      (resultAddr s wa.bytes wr.bytes) (up s.pc 1)) := by
  simp [unary, stackCheck_ok h.stack, memRead_ok h.top, putElem_ok h.result]

theorem unary_cases (s : State) {wa wr : Width} (f : Elem wa → Elem wr) :
    UnaryOk s wa wr ∨ Raises s (unary wa wr f s) := by
  rcases stackCheck_cases s wa.bytes wr.bytes with ⟨hc, h⟩ | ⟨hc, -⟩ | ⟨hc, -⟩
  · rcases memRead_cases s s.sp wa with ⟨hm, ha⟩ | ⟨c, hm, -⟩
    · rcases putElem_cases s wa.bytes wr (f (s.elem s.sp wa)) 1 with hr | ⟨c, hr⟩
      · exact .inl ⟨h, ha, hr⟩
      · exact .inr ⟨c, by simp [unary, hc, hm, hr]⟩
    · exact .inr ⟨c, by simp [unary, hc, hm]⟩
  all_goals exact .inr ⟨_, by simp [unary, hc]; rfl⟩

theorem binary_ok {s : State} {wa wb wr : Width} {f : Elem wa → Elem wb → Except FaultCause (Elem wr)} {r : Elem wr}
    (h : BinaryOk s wa wb wr) (hf : f (s.beneath wa wb) (s.elem s.sp wb) = .ok r) :
    binary wa wb wr f s = .next (s.stored (resultAddr s (wa.bytes + wb.bytes) wr.bytes) wr r
      (resultAddr s (wa.bytes + wb.bytes) wr.bytes) (up s.pc 1)) := by
  rw [State.beneath] at hf
  simp [binary, stackCheck_ok h.operands.stack, memRead_ok h.operands.top, memRead_ok h.operands.beneath, hf,
    putElem_ok h.result]

/-- A computation that raises is reached once the operands are read, whatever stands where the result would go. -/
theorem binary_raises {s : State} {wa wb wr : Width} {f : Elem wa → Elem wb → Except FaultCause (Elem wr)}
    {c : FaultCause} (h : OperandsOk s wa wb wr) (hf : f (s.beneath wa wb) (s.elem s.sp wb) = .error c) :
    binary wa wb wr f s = .next (s.raise c) := by
  rw [State.beneath] at hf
  simp [binary, stackCheck_ok h.stack, memRead_ok h.top, memRead_ok h.beneath, hf]

theorem binary_cases (s : State) {wa wb wr : Width} (f : Elem wa → Elem wb → Except FaultCause (Elem wr)) :
    (BinaryOk s wa wb wr ∧ ∃ r, f (s.beneath wa wb) (s.elem s.sp wb) = .ok r) ∨ Raises s (binary wa wb wr f s) := by
  rcases stackCheck_cases s (wa.bytes + wb.bytes) wr.bytes with ⟨hc, h⟩ | ⟨hc, -⟩ | ⟨hc, -⟩
  · rcases memRead_cases s s.sp wb with ⟨hb, hb'⟩ | ⟨c, hb, -⟩
    · rcases memRead_cases s (up s.sp wb.bytes) wa with ⟨ha, ha'⟩ | ⟨c, ha, -⟩
      · cases hf : f (s.beneath wa wb) (s.elem s.sp wb) with
        | error c => exact .inr ⟨c, binary_raises ⟨h, hb', ha'⟩ hf⟩
        | ok r =>
          rcases putElem_cases s (wa.bytes + wb.bytes) wr r 1 with hr | ⟨c, hr⟩
          · exact .inl ⟨⟨⟨h, hb', ha'⟩, hr⟩, r, rfl⟩
          · exact .inr ⟨c, by rw [State.beneath] at hf; simp [binary, hc, hb, ha, hf, hr]⟩
      · exact .inr ⟨c, by simp [binary, hc, hb, ha]⟩
    · exact .inr ⟨c, by simp [binary, hc, hb]⟩
  all_goals exact .inr ⟨_, by simp [binary, hc]; rfl⟩

theorem binaryPure_ok {s : State} {wa wb wr : Width} (f : Elem wa → Elem wb → Elem wr) (h : BinaryOk s wa wb wr) :
    binaryPure wa wb wr f s = .next (s.stored (resultAddr s (wa.bytes + wb.bytes) wr.bytes) wr
      (f (s.beneath wa wb) (s.elem s.sp wb)) (resultAddr s (wa.bytes + wb.bytes) wr.bytes) (up s.pc 1)) :=
  binary_ok h rfl

theorem binaryPure_cases (s : State) {wa wb wr : Width} (f : Elem wa → Elem wb → Elem wr) :
    BinaryOk s wa wb wr ∨ Raises s (binaryPure wa wb wr f s) := (binary_cases s _).imp And.left id

/-! ## Loads and stores -/

theorem loadKeep_ok {s : State} {w : Width} {mode : AddrMode} (h : LoadOk s w mode 0 (8 + w.bytes)) :
    loadKeep w mode s = .next (s.stored (resultAddr s 0 w.bytes) w (s.elem (effAddr s mode (s.elem s.sp .w64)) w)
      (resultAddr s 0 w.bytes) (up s.pc 1)) := by
  simp [loadKeep, stackCheck_ok h.stack, memRead_ok (w := .w64) h.address, memRead_ok h.data, putElem_ok h.result]

theorem loadPop_ok {s : State} {w : Width} {mode : AddrMode} (h : LoadOk s w mode 8 w.bytes) :
    loadPop w mode s = .next (s.stored (resultAddr s 8 w.bytes) w (s.elem (effAddr s mode (s.elem s.sp .w64)) w)
      (resultAddr s 8 w.bytes) (up s.pc 1)) := by
  simp [loadPop, stackCheck_ok h.stack, memRead_ok (w := .w64) h.address, memRead_ok h.data, putElem_ok h.result]

theorem loadKeep_cases (s : State) (w : Width) (mode : AddrMode) :
    LoadOk s w mode 0 (8 + w.bytes) ∨ Raises s (loadKeep w mode s) := by
  rcases stackCheck_cases s 8 (8 + w.bytes) with ⟨hc, h⟩ | ⟨hc, -⟩ | ⟨hc, -⟩
  · rcases memRead_cases s s.sp .w64 with ⟨ha, ha'⟩ | ⟨c, ha, -⟩
    · rcases memRead_cases s (effAddr s mode (s.elem s.sp .w64)) w with ⟨hd, hd'⟩ | ⟨c, hd, -⟩
      · rcases putElem_cases s 0 w (s.elem (effAddr s mode (s.elem s.sp .w64)) w) 1 with hr | ⟨c, hr⟩
        · exact .inl ⟨h, ha', hd', hr⟩
        · exact .inr ⟨c, by simp [loadKeep, hc, ha, hd, hr]⟩
      · exact .inr ⟨c, by simp [loadKeep, hc, ha, hd]⟩
    · exact .inr ⟨c, by simp [loadKeep, hc, ha]⟩
  all_goals exact .inr ⟨_, by simp [loadKeep, hc]; rfl⟩

theorem loadPop_cases (s : State) (w : Width) (mode : AddrMode) :
    LoadOk s w mode 8 w.bytes ∨ Raises s (loadPop w mode s) := by
  rcases stackCheck_cases s 8 w.bytes with ⟨hc, h⟩ | ⟨hc, -⟩ | ⟨hc, -⟩
  · rcases memRead_cases s s.sp .w64 with ⟨ha, ha'⟩ | ⟨c, ha, -⟩
    · rcases memRead_cases s (effAddr s mode (s.elem s.sp .w64)) w with ⟨hd, hd'⟩ | ⟨c, hd, -⟩
      · rcases putElem_cases s 8 w (s.elem (effAddr s mode (s.elem s.sp .w64)) w) 1 with hr | ⟨c, hr⟩
        · exact .inl ⟨h, ha', hd', hr⟩
        · exact .inr ⟨c, by simp [loadPop, hc, ha, hd, hr]⟩
      · exact .inr ⟨c, by simp [loadPop, hc, ha, hd]⟩
    · exact .inr ⟨c, by simp [loadPop, hc, ha]⟩
  all_goals exact .inr ⟨_, by simp [loadPop, hc]; rfl⟩

theorem storeTop_ok {s : State} {w : Width} {mode : AddrMode} {nPop : Nat}
    (h : StoreOk s w .w64 nPop (storeTopAddr s w mode) w) :
    storeTop w mode nPop s =
      .next (s.stored (storeTopAddr s w mode) w (s.elem s.sp w) (up s.sp nPop) (up s.pc 1)) := by
  have hd := h.data
  rw [storeTopAddr] at hd
  simp [storeTop, stackCheck_ok h.stack, memRead_ok h.top, memRead_ok (w := .w64) h.below, memWrite_ok hd,
    storeTopAddr, State.stored]

theorem storeBeneath_ok {s : State} {w : Width} {mode : AddrMode} {nPop : Nat}
    (h : StoreOk s .w64 w nPop (storeBeneathAddr s mode) w) :
    storeBeneath w mode nPop s =
      .next (s.stored (storeBeneathAddr s mode) w (s.elem (up s.sp 8) w) (up s.sp nPop) (up s.pc 1)) := by
  have hd := h.data
  rw [storeBeneathAddr] at hd
  have hb : memRead s (up s.sp 8) w = .ok (s.elem (up s.sp 8) w) := memRead_ok h.below
  simp [storeBeneath, stackCheck_ok h.stack, memRead_ok (w := .w64) h.top, hb, memWrite_ok hd,
    storeBeneathAddr, State.stored]

theorem storeTop_cases (s : State) (w : Width) (mode : AddrMode) (nPop : Nat) :
    StoreOk s w .w64 nPop (storeTopAddr s w mode) w ∨ Raises s (storeTop w mode nPop s) := by
  rcases stackCheck_cases s (8 + w.bytes) (8 + w.bytes - nPop) with ⟨hc, h⟩ | ⟨hc, -⟩ | ⟨hc, -⟩
  · rcases memRead_cases s s.sp w with ⟨hb, hb'⟩ | ⟨c, hb, -⟩
    · rcases memRead_cases s (up s.sp w.bytes) .w64 with ⟨ha, ha'⟩ | ⟨c, ha, -⟩
      · rcases memWrite_cases s s.mem (storeTopAddr s w mode) w (s.elem s.sp w) with ⟨-, hd⟩ | ⟨c, hd, -⟩
        · exact .inl ⟨h, hb', ha', hd⟩
        · rw [storeTopAddr] at hd
          exact .inr ⟨c, by simp [storeTop, hc, hb, ha, hd]⟩
      · exact .inr ⟨c, by simp [storeTop, hc, hb, ha]⟩
    · exact .inr ⟨c, by simp [storeTop, hc, hb]⟩
  all_goals exact .inr ⟨_, by simp [storeTop, hc]; rfl⟩

theorem storeBeneath_cases (s : State) (w : Width) (mode : AddrMode) (nPop : Nat) :
    StoreOk s .w64 w nPop (storeBeneathAddr s mode) w ∨ Raises s (storeBeneath w mode nPop s) := by
  rcases stackCheck_cases s (8 + w.bytes) (8 + w.bytes - nPop) with ⟨hc, h⟩ | ⟨hc, -⟩ | ⟨hc, -⟩
  · rcases memRead_cases s s.sp .w64 with ⟨hb, hb'⟩ | ⟨c, hb, -⟩
    · rcases memRead_cases s (up s.sp 8) w with ⟨ha, ha'⟩ | ⟨c, ha, -⟩
      · rcases memWrite_cases s s.mem (storeBeneathAddr s mode) w (s.elem (up s.sp 8) w) with ⟨-, hd⟩ | ⟨c, hd, -⟩
        · exact .inl ⟨h, hb', ha', hd⟩
        · rw [storeBeneathAddr] at hd
          exact .inr ⟨c, by simp [storeBeneath, hc, hb, ha, hd]⟩
      · exact .inr ⟨c, by simp [storeBeneath, hc, hb, ha]⟩
    · exact .inr ⟨c, by simp [storeBeneath, hc, hb]⟩
  all_goals exact .inr ⟨_, by simp [storeBeneath, hc]; rfl⟩

/-! ## Branches and jmps -/

theorem branchZero_ok {s : State} {w : Width} {target : Addr} {len : Nat} (h : StackOk s w.bytes 0)
    (ha : DataOk s s.sp w.bytes) :
    branchZero w target len s =
      .next (s.put s.mem (up s.sp w.bytes) (if s.elem s.sp w = 0 then target else up s.pc len)) := by
  simp [branchZero, stackCheck_ok h, memRead_ok ha]

theorem branchZero_cases (s : State) (w : Width) (target : Addr) (len : Nat) :
    (StackOk s w.bytes 0 ∧ DataOk s s.sp w.bytes) ∨ Raises s (branchZero w target len s) := by
  rcases stackCheck_cases s w.bytes 0 with ⟨hc, h⟩ | ⟨hc, -⟩ | ⟨hc, -⟩
  · rcases memRead_cases s s.sp w with ⟨hm, ha⟩ | ⟨c, hm, -⟩
    · exact .inl ⟨h, ha⟩
    · exact .inr ⟨c, by simp [branchZero, hc, hm]⟩
  all_goals exact .inr ⟨_, by simp [branchZero, hc]; rfl⟩

theorem jmps_ok {s : State} (h : StackOk s 8 0) (ha : DataOk s s.sp 8) :
    execJmps s = .next (s.put s.mem (up s.sp 8) (s.elem s.sp .w64)) := by
  simp [execJmps, stackCheck_ok h, memRead_ok (w := .w64) ha]

theorem jmps_cases (s : State) : (StackOk s 8 0 ∧ DataOk s s.sp 8) ∨ Raises s (execJmps s) := by
  rcases stackCheck_cases s 8 0 with ⟨hc, h⟩ | ⟨hc, -⟩ | ⟨hc, -⟩
  · rcases memRead_cases s s.sp .w64 with ⟨hm, ha⟩ | ⟨c, hm, -⟩
    · exact .inl ⟨h, ha⟩
    · exact .inr ⟨c, by simp [execJmps, hc, hm]⟩
  all_goals exact .inr ⟨_, by simp [execJmps, hc]; rfl⟩

/-! ## Call and return -/

/-- The memory after a call: PSFP at hi, then RETA at lo (45_call_return.md R351, R352). -/
def State.frameMem (s : State) (hi lo reta : Addr) : Memory :=
  (s.mem.storeLE hi 8 s.sfp.toNat).storeLE lo 8 reta.toNat

theorem call_ok {s : State} (imm : BitVec 64) (h : StackOk s 0 16) (hp : DataOk s (down s.sp 8) 8)
    (hr : DataOk s (down s.sp 16) 8) :
    execCall imm s =
      .next (s.enterFrame (s.frameMem (down s.sp 8) (down s.sp 16) (up s.pc 9)) (down s.sp 16) imm) := by
  simp [execCall, stackCheck_ok h, memWrite_ok (w := .w64) hp, memWrite_ok (w := .w64) hr, State.frameMem]

theorem call_cases (s : State) (imm : BitVec 64) :
    (StackOk s 0 16 ∧ DataOk s (down s.sp 8) 8 ∧ DataOk s (down s.sp 16) 8) ∨ Raises s (execCall imm s) := by
  rcases stackCheck_cases s 0 16 with ⟨hc, h⟩ | ⟨hc, -⟩ | ⟨hc, -⟩
  · rcases memWrite_cases s s.mem (down s.sp 8) .w64 s.sfp with ⟨hp, hp'⟩ | ⟨c, hp, -⟩
    · rcases memWrite_cases s (s.mem.storeLE (down s.sp 8) 8 s.sfp.toNat) (down s.sp 16) .w64 (up s.pc 9) with
        ⟨-, hr⟩ | ⟨c, hr, -⟩
      · exact .inl ⟨h, hp', hr⟩
      · exact .inr ⟨c, by simp [execCall, hc, hp, hr]⟩
    · exact .inr ⟨c, by simp [execCall, hc, hp]⟩
  all_goals exact .inr ⟨_, by simp [execCall, hc]; rfl⟩

theorem calls_ok {s : State} (h : StackOk s 8 16) (ha : DataOk s s.sp 8) (hr : DataOk s (down s.sp 8) 8) :
    execCalls s = .next (s.enterFrame (s.frameMem s.sp (down s.sp 8) (up s.pc 1)) (down s.sp 8)
      (s.elem s.sp .w64)) := by
  simp [execCalls, stackCheck_ok h, memRead_ok (w := .w64) ha, memWrite_ok (w := .w64) ha,
    memWrite_ok (w := .w64) hr, State.frameMem]

theorem calls_cases (s : State) :
    (StackOk s 8 16 ∧ DataOk s s.sp 8 ∧ DataOk s (down s.sp 8) 8) ∨ Raises s (execCalls s) := by
  rcases stackCheck_cases s 8 16 with ⟨hc, h⟩ | ⟨hc, -⟩ | ⟨hc, -⟩
  · rcases memRead_cases s s.sp .w64 with ⟨hm, ha⟩ | ⟨c, hm, -⟩
    · rcases memWrite_cases s (s.mem.storeLE s.sp 8 s.sfp.toNat) (down s.sp 8) .w64 (up s.pc 1) with
        ⟨-, hr⟩ | ⟨c, hr, -⟩
      · exact .inl ⟨h, ha, hr⟩
      · exact .inr ⟨c, by simp [execCalls, hc, hm, memWrite_ok (w := .w64) ha, hr]⟩
    · exact .inr ⟨c, by simp [execCalls, hc, hm]⟩
  all_goals exact .inr ⟨_, by simp [execCalls, hc]; rfl⟩

theorem ret_ok {s : State} (h : RetOk s) :
    execRet s = .next (s.leaveFrame (up s.sfp 16) (s.elem (up s.sfp 8) .w64) (s.elem s.sfp .w64)) := by
  simp [execRet, rawRead_ok (w := .w64) h.reta, rawRead_ok (w := .w64) h.psfp, frameStackCheck_ok h.bottom h.limit]

theorem ret_cases (s : State) : RetOk s ∨ Raises s (execRet s) := by
  rcases rawRead_cases s s.sfp .w64 with ⟨hr, hr'⟩ | ⟨j, -, hr, -⟩
  · rcases rawRead_cases s (up s.sfp 8) .w64 with ⟨hp, hp'⟩ | ⟨j, -, hp, -⟩
    · rcases frameStackCheck_cases s with ⟨-, hb, hl⟩ | ⟨hc, -⟩ | ⟨hc, -⟩
      · exact .inl ⟨hr', hp', hb, hl⟩
      all_goals exact .inr ⟨_, by simp [execRet, hr, hp, hc]; rfl⟩
    · exact .inr ⟨_, by simp [execRet, hr, hp]; rfl⟩
  · exact .inr ⟨_, by simp [execRet, hr]; rfl⟩

end Sys2Proof.Machine
end

