-- ==== Sys2Proof/Laws/Effect.lean ====
section
/-! SUPPORT. What any instruction can do to any state, said once: it answers a next state, which is one of twelve kinds. -/

namespace Sys2Proof.Machine

/-- The stack use of an instruction passed its StackCheck, and sp is the new SP it gives (20_memory.md R61, R62). -/
def StackMoves (s : State) (i : Instr) (sp : Addr) : Prop :=
  ∃ nIn nOut, i.stackUse s = some (nIn, nOut) ∧ StackOk s nIn nOut ∧ sp = resultAddr s nIn nOut

/-- The state t may follow s by the instruction i. -/
inductive Effect (s : State) (i : Instr) : State → Prop where
  | raised (c : FaultCause) : Effect s i (s.raise c)
  | moved (sp pc : Addr) (h : StackMoves s i sp) : Effect s i (s.put s.mem sp pc)
  | stored (a : Addr) (w : Width) (v : Elem w) (sp pc : Addr) (h : StackMoves s i sp) (ha : DataOk s a w.bytes) :
    Effect s i (s.stored a w v sp pc)
  | framed (hi lo pc reta : Addr) (h : StackMoves s i lo) (hc : i = .calls ∨ ∃ imm, i = .call imm)
    (hh : DataOk s hi 8) (hl : DataOk s lo 8) : Effect s i (s.enterFrame (s.frameMem hi lo reta) lo pc)
  | returned (psfp reta : Addr) (hi : i = .ret) (h : RetOk s) (hp : psfp = s.elem (up s.sfp 8) .w64)
    (hr : reta = s.elem s.sfp .w64) : Effect s i (s.leaveFrame (up s.sfp 16) psfp reta)
  | jumped (pc : Addr) (hi : i.stackUse s = none) : Effect s i (s.setPc pc)
  | setSbp (v : Addr) (hi : i = .setsbp v) : Effect s i (s.setSbp v (up s.pc 9))
  | setSfp (v : Addr) (hi : i = .setsfp v) : Effect s i (s.setSfp v (up s.pc 9))
  | setSp (v : Addr) (hi : i = .setsp v) : Effect s i (s.setSp v (up s.pc 9))
  | setSlp (v : Addr) (hi : i = .setslp v) : Effect s i (s.setSlp v (up s.pc 9))
  | halted (hi : i = .halt) : Effect s i s.halt

/-- An answer is a next state of one of the kinds. -/
def Runs (s : State) (i : Instr) (r : Result) : Prop := ∃ t, r = .next t ∧ Effect s i t

theorem Raises.runs {s : State} {r : Result} (h : Raises s r) (i : Instr) : Runs s i r := by
  obtain ⟨c, rfl⟩ := h
  exact ⟨_, rfl, .raised c⟩

theorem runs_pushElem {s : State} {i : Instr} {w : Width} {v : Elem w} {len : Nat}
    (hi : i.stackUse s = some (0, w.bytes)) : Runs s i (pushElem w v len s) := by
  rcases pushElem_cases s w v len with ⟨h, hr⟩ | h
  · exact ⟨_, pushElem_ok h hr, .stored _ _ _ _ _ ⟨_, _, hi, h, rfl⟩ hr⟩
  · exact h.runs i

theorem runs_popElem {s : State} {i : Instr} {w : Width} (hi : i.stackUse s = some (w.bytes, 0)) :
    Runs s i (popElem w s) := by
  rcases popElem_cases s w with h | h
  · exact ⟨_, popElem_ok h, .moved _ _ ⟨_, _, hi, h, (resultAddr_pop s (Nat.zero_le _)).symm⟩⟩
  · exact h.runs i

theorem runs_dupElem {s : State} {i : Instr} {w : Width} (hi : i.stackUse s = some (w.bytes, 2 * w.bytes)) :
    Runs s i (dupElem w s) := by
  rcases dupElem_cases s w with ⟨h, ha, hr⟩ | h
  · refine ⟨_, dupElem_ok h ha hr, .stored _ _ _ _ _ ⟨_, _, hi, h, ?_⟩ hr⟩
    rw [resultAddr_push s (Nat.zero_le _), resultAddr_push s (by omega)]
    congr 1; omega
  · exact h.runs i

theorem runs_setElem {s : State} {i : Instr} {w : Width} (hi : i.stackUse s = some (2 * w.bytes, w.bytes)) :
    Runs s i (setElem w s) := by
  rcases setElem_cases s w with ⟨h, hb, hr⟩ | h
  · exact ⟨_, setElem_ok h hb hr, .stored _ _ _ _ _ ⟨_, _, hi, h, rfl⟩ hr⟩
  · exact h.runs i

theorem runs_unary {s : State} {i : Instr} {wa wr : Width} {f : Elem wa → Elem wr}
    (hi : i.stackUse s = some (wa.bytes, wr.bytes)) : Runs s i (unary wa wr f s) := by
  rcases unary_cases s f with h | h
  · exact ⟨_, unary_ok f h, .stored _ _ _ _ _ ⟨_, _, hi, h.stack, rfl⟩ h.result⟩
  · exact h.runs i

theorem runs_binary {s : State} {i : Instr} {wa wb wr : Width} {f : Elem wa → Elem wb → Except FaultCause (Elem wr)}
    (hi : i.stackUse s = some (wa.bytes + wb.bytes, wr.bytes)) : Runs s i (binary wa wb wr f s) := by
  rcases binary_cases s f with ⟨h, r, hf⟩ | h
  · exact ⟨_, binary_ok h hf, .stored _ _ _ _ _ ⟨_, _, hi, h.operands.stack, rfl⟩ h.result⟩
  · exact h.runs i

theorem runs_loadKeep {s : State} {i : Instr} {w : Width} {mode : AddrMode}
    (hi : i.stackUse s = some (8, 8 + w.bytes)) : Runs s i (loadKeep w mode s) := by
  rcases loadKeep_cases s w mode with h | h
  · refine ⟨_, loadKeep_ok h, .stored _ _ _ _ _ ⟨_, _, hi, h.stack, ?_⟩ h.result⟩
    rw [resultAddr_push s (Nat.zero_le _), resultAddr_push s (by omega)]
    congr 1; omega
  · exact h.runs i

theorem runs_loadPop {s : State} {i : Instr} {w : Width} {mode : AddrMode}
    (hi : i.stackUse s = some (8, w.bytes)) : Runs s i (loadPop w mode s) := by
  rcases loadPop_cases s w mode with h | h
  · exact ⟨_, loadPop_ok h, .stored _ _ _ _ _ ⟨_, _, hi, h.stack, rfl⟩ h.result⟩
  · exact h.runs i

/-- The new SP of a store. -/
theorem resultAddr_store (s : State) {n k : Nat} (h : k ≤ n) : resultAddr s n (n - k) = up s.sp k := by
  rw [resultAddr_pop s (Nat.sub_le _ _)]
  congr 1; omega

theorem runs_storeTop {s : State} {i : Instr} {w : Width} {mode : AddrMode} {nPop : Nat} (hp : nPop ≤ 8 + w.bytes)
    (hi : i.stackUse s = some (8 + w.bytes, 8 + w.bytes - nPop)) : Runs s i (storeTop w mode nPop s) := by
  rcases storeTop_cases s w mode nPop with h | h
  · exact ⟨_, storeTop_ok h, .stored _ _ _ _ _ ⟨_, _, hi, h.stack, (resultAddr_store s hp).symm⟩ h.data⟩
  · exact h.runs i

theorem runs_storeBeneath {s : State} {i : Instr} {w : Width} {mode : AddrMode} {nPop : Nat}
    (hp : nPop ≤ 8 + w.bytes) (hi : i.stackUse s = some (8 + w.bytes, 8 + w.bytes - nPop)) :
    Runs s i (storeBeneath w mode nPop s) := by
  rcases storeBeneath_cases s w mode nPop with h | h
  · exact ⟨_, storeBeneath_ok h, .stored _ _ _ _ _ ⟨_, _, hi, h.stack, (resultAddr_store s hp).symm⟩ h.data⟩
  · exact h.runs i

theorem runs_branchZero {s : State} {i : Instr} {w : Width} {target : Addr} {len : Nat}
    (hi : i.stackUse s = some (w.bytes, 0)) : Runs s i (branchZero w target len s) := by
  rcases branchZero_cases s w target len with ⟨h, ha⟩ | h
  · exact ⟨_, branchZero_ok h ha, .moved _ _ ⟨_, _, hi, h, (resultAddr_pop s (Nat.zero_le _)).symm⟩⟩
  · exact h.runs i

theorem runs_jmps (s : State) : Runs s .jmps (execJmps s) := by
  rcases jmps_cases s with ⟨h, ha⟩ | h
  · exact ⟨_, jmps_ok h ha, .moved _ _ ⟨8, 0, rfl, h, (resultAddr_pop (nIn := 8) s (Nat.zero_le _)).symm⟩⟩
  · exact h.runs _

theorem runs_call (s : State) (imm : BitVec 64) : Runs s (.call imm) (execCall imm s) := by
  rcases call_cases s imm with ⟨h, hp, hr⟩ | h
  · exact ⟨_, call_ok imm h hp hr, .framed _ _ _ _ ⟨0, 16, rfl, h, (resultAddr_push (nOut := 16) s (Nat.zero_le _)).symm⟩
      (.inr ⟨imm, rfl⟩) hp hr⟩
  · exact h.runs _

theorem runs_calls (s : State) : Runs s .calls (execCalls s) := by
  rcases calls_cases s with ⟨h, ha, hr⟩ | h
  · exact ⟨_, calls_ok h ha hr, .framed _ _ _ _ ⟨8, 16, rfl, h, (resultAddr_push (nIn := 8) (nOut := 16) s (by decide)).symm⟩
      (.inl rfl) ha hr⟩
  · exact h.runs _

theorem runs_ret (s : State) : Runs s .ret (execRet s) := by
  rcases ret_cases s with h | h
  · exact ⟨_, ret_ok h, .returned _ _ rfl h rfl rfl⟩
  · exact h.runs _

/-- Every instruction answers a next state of one of the kinds. -/
theorem exec_runs (i : Instr) (s : State) : Runs s i (exec i s) :=
  match i with
  | .push8 _ => runs_pushElem rfl
  | .push8asu16 _ => runs_pushElem rfl
  | .push8asu32 _ => runs_pushElem rfl
  | .push8asu64 _ => runs_pushElem rfl
  | .push8asi16 _ => runs_pushElem rfl
  | .push8asi32 _ => runs_pushElem rfl
  | .push8asi64 _ => runs_pushElem rfl
  | .push16 _ => runs_pushElem rfl
  | .push16asu32 _ => runs_pushElem rfl
  | .push16asu64 _ => runs_pushElem rfl
  | .push16asi32 _ => runs_pushElem rfl
  | .push16asi64 _ => runs_pushElem rfl
  | .push32 _ => runs_pushElem rfl
  | .push32asu64 _ => runs_pushElem rfl
  | .push32asi64 _ => runs_pushElem rfl
  | .push64 _ => runs_pushElem rfl
  | .pop8 => runs_popElem rfl
  | .pop16 => runs_popElem rfl
  | .pop32 => runs_popElem rfl
  | .pop64 => runs_popElem rfl
  | .dup8 => runs_dupElem rfl
  | .dup16 => runs_dupElem rfl
  | .dup32 => runs_dupElem rfl
  | .dup64 => runs_dupElem rfl
  | .set8 => runs_setElem rfl
  | .set16 => runs_setElem rfl
  | .set32 => runs_setElem rfl
  | .set64 => runs_setElem rfl
  | .prom8u16 => runs_unary rfl
  | .prom8u32 => runs_unary rfl
  | .prom8u64 => runs_unary rfl
  | .prom8i16 => runs_unary rfl
  | .prom8i32 => runs_unary rfl
  | .prom8i64 => runs_unary rfl
  | .prom16u32 => runs_unary rfl
  | .prom16u64 => runs_unary rfl
  | .prom16i32 => runs_unary rfl
  | .prom16i64 => runs_unary rfl
  | .prom32u64 => runs_unary rfl
  | .prom32i64 => runs_unary rfl
  | .dem64to16 => runs_unary rfl
  | .dem64to8 => runs_unary rfl
  | .dem32to8 => runs_unary rfl
  | .add8 => runs_binary rfl
  | .add16 => runs_binary rfl
  | .add32 => runs_binary rfl
  | .add64 => runs_binary rfl
  | .sub8 => runs_binary rfl
  | .sub16 => runs_binary rfl
  | .sub32 => runs_binary rfl
  | .sub64 => runs_binary rfl
  | .subr8 => runs_binary rfl
  | .subr16 => runs_binary rfl
  | .subr32 => runs_binary rfl
  | .subr64 => runs_binary rfl
  | .mulu8 => runs_binary rfl
  | .mulu16 => runs_binary rfl
  | .mulu32 => runs_binary rfl
  | .mulu64 => runs_binary rfl
  | .muli8 => runs_binary rfl
  | .muli16 => runs_binary rfl
  | .muli32 => runs_binary rfl
  | .muli64 => runs_binary rfl
  | .divu8 => runs_binary rfl
  | .divu16 => runs_binary rfl
  | .divu32 => runs_binary rfl
  | .divu64 => runs_binary rfl
  | .divru8 => runs_binary rfl
  | .divru16 => runs_binary rfl
  | .divru32 => runs_binary rfl
  | .divru64 => runs_binary rfl
  | .divi8 => runs_binary rfl
  | .divi16 => runs_binary rfl
  | .divi32 => runs_binary rfl
  | .divi64 => runs_binary rfl
  | .divri8 => runs_binary rfl
  | .divri16 => runs_binary rfl
  | .divri32 => runs_binary rfl
  | .divri64 => runs_binary rfl
  | .modu8 => runs_binary rfl
  | .modu16 => runs_binary rfl
  | .modu32 => runs_binary rfl
  | .modu64 => runs_binary rfl
  | .modru8 => runs_binary rfl
  | .modru16 => runs_binary rfl
  | .modru32 => runs_binary rfl
  | .modru64 => runs_binary rfl
  | .modi8 => runs_binary rfl
  | .modi16 => runs_binary rfl
  | .modi32 => runs_binary rfl
  | .modi64 => runs_binary rfl
  | .modri8 => runs_binary rfl
  | .modri16 => runs_binary rfl
  | .modri32 => runs_binary rfl
  | .modri64 => runs_binary rfl
  | .lshift8 => runs_binary rfl
  | .lshift16 => runs_binary rfl
  | .lshift32 => runs_binary rfl
  | .lshift64 => runs_binary rfl
  | .rshiftu8 => runs_binary rfl
  | .rshiftu16 => runs_binary rfl
  | .rshiftu32 => runs_binary rfl
  | .rshiftu64 => runs_binary rfl
  | .rshifti8 => runs_binary rfl
  | .rshifti16 => runs_binary rfl
  | .rshifti32 => runs_binary rfl
  | .rshifti64 => runs_binary rfl
  | .band8 => runs_binary rfl
  | .band16 => runs_binary rfl
  | .band32 => runs_binary rfl
  | .band64 => runs_binary rfl
  | .bor8 => runs_binary rfl
  | .bor16 => runs_binary rfl
  | .bor32 => runs_binary rfl
  | .bor64 => runs_binary rfl
  | .bxor8 => runs_binary rfl
  | .bxor16 => runs_binary rfl
  | .bxor32 => runs_binary rfl
  | .bxor64 => runs_binary rfl
  | .binv8 => runs_unary rfl
  | .binv16 => runs_unary rfl
  | .binv32 => runs_unary rfl
  | .binv64 => runs_unary rfl
  | .land8 => runs_binary rfl
  | .land16 => runs_binary rfl
  | .land32 => runs_binary rfl
  | .land64 => runs_binary rfl
  | .lor8 => runs_binary rfl
  | .lor16 => runs_binary rfl
  | .lor32 => runs_binary rfl
  | .lor64 => runs_binary rfl
  | .linv8 => runs_unary rfl
  | .linv16 => runs_unary rfl
  | .linv32 => runs_unary rfl
  | .linv64 => runs_unary rfl
  | .ceq8 => runs_binary rfl
  | .ceq16 => runs_binary rfl
  | .ceq32 => runs_binary rfl
  | .ceq64 => runs_binary rfl
  | .cne8 => runs_binary rfl
  | .cne16 => runs_binary rfl
  | .cne32 => runs_binary rfl
  | .cne64 => runs_binary rfl
  | .cgtu8 => runs_binary rfl
  | .cgtu16 => runs_binary rfl
  | .cgtu32 => runs_binary rfl
  | .cgtu64 => runs_binary rfl
  | .cgti8 => runs_binary rfl
  | .cgti16 => runs_binary rfl
  | .cgti32 => runs_binary rfl
  | .cgti64 => runs_binary rfl
  | .cltu8 => runs_binary rfl
  | .cltu16 => runs_binary rfl
  | .cltu32 => runs_binary rfl
  | .cltu64 => runs_binary rfl
  | .clti8 => runs_binary rfl
  | .clti16 => runs_binary rfl
  | .clti32 => runs_binary rfl
  | .clti64 => runs_binary rfl
  | .cgteu8 => runs_binary rfl
  | .cgteu16 => runs_binary rfl
  | .cgteu32 => runs_binary rfl
  | .cgteu64 => runs_binary rfl
  | .cgtei8 => runs_binary rfl
  | .cgtei16 => runs_binary rfl
  | .cgtei32 => runs_binary rfl
  | .cgtei64 => runs_binary rfl
  | .clteu8 => runs_binary rfl
  | .clteu16 => runs_binary rfl
  | .clteu32 => runs_binary rfl
  | .clteu64 => runs_binary rfl
  | .cltei8 => runs_binary rfl
  | .cltei16 => runs_binary rfl
  | .cltei32 => runs_binary rfl
  | .cltei64 => runs_binary rfl
  | .call imm => runs_call s imm
  | .calls => runs_calls s
  | .ret => runs_ret s
  | .jmp _ => ⟨_, rfl, .jumped _ rfl⟩
  | .jmps => runs_jmps s
  | .rjmpi8 _ => ⟨_, rfl, .jumped _ rfl⟩
  | .rjmpi16 _ => ⟨_, rfl, .jumped _ rfl⟩
  | .rjmpi32 _ => ⟨_, rfl, .jumped _ rfl⟩
  | .brz8 _ => runs_branchZero rfl
  | .brz16 _ => runs_branchZero rfl
  | .brz32 _ => runs_branchZero rfl
  | .brz64 _ => runs_branchZero rfl
  | .rbrz8i8 _ => runs_branchZero rfl
  | .rbrz8i16 _ => runs_branchZero rfl
  | .rbrz8i32 _ => runs_branchZero rfl
  | .rbrz16i8 _ => runs_branchZero rfl
  | .rbrz16i16 _ => runs_branchZero rfl
  | .rbrz16i32 _ => runs_branchZero rfl
  | .rbrz32i8 _ => runs_branchZero rfl
  | .rbrz32i16 _ => runs_branchZero rfl
  | .rbrz32i32 _ => runs_branchZero rfl
  | .rbrz64i8 _ => runs_branchZero rfl
  | .rbrz64i16 _ => runs_branchZero rfl
  | .rbrz64i32 _ => runs_branchZero rfl
  | .load8 => runs_loadKeep rfl
  | .load16 => runs_loadKeep rfl
  | .load32 => runs_loadKeep rfl
  | .load64 => runs_loadKeep rfl
  | .loadpop8 => runs_loadPop rfl
  | .loadpop16 => runs_loadPop rfl
  | .loadpop32 => runs_loadPop rfl
  | .loadpop64 => runs_loadPop rfl
  | .loadsfp8 => runs_loadKeep rfl
  | .loadsfp16 => runs_loadKeep rfl
  | .loadsfp32 => runs_loadKeep rfl
  | .loadsfp64 => runs_loadKeep rfl
  | .loadpopsfp8 => runs_loadPop rfl
  | .loadpopsfp16 => runs_loadPop rfl
  | .loadpopsfp32 => runs_loadPop rfl
  | .loadpopsfp64 => runs_loadPop rfl
  | .store8 => runs_storeTop (by decide) rfl
  | .store16 => runs_storeTop (by decide) rfl
  | .store32 => runs_storeTop (by decide) rfl
  | .store64 => runs_storeTop (by decide) rfl
  | .storepop8 => runs_storeTop (by decide) rfl
  | .storepop16 => runs_storeTop (by decide) rfl
  | .storepop32 => runs_storeTop (by decide) rfl
  | .storepop64 => runs_storeTop (by decide) rfl
  | .storesfp8 => runs_storeTop (by decide) rfl
  | .storesfp16 => runs_storeTop (by decide) rfl
  | .storesfp32 => runs_storeTop (by decide) rfl
  | .storesfp64 => runs_storeTop (by decide) rfl
  | .storepopsfp8 => runs_storeTop (by decide) rfl
  | .storepopsfp16 => runs_storeTop (by decide) rfl
  | .storepopsfp32 => runs_storeTop (by decide) rfl
  | .storepopsfp64 => runs_storeTop (by decide) rfl
  | .storer8 => runs_storeBeneath (by decide) rfl
  | .storer16 => runs_storeBeneath (by decide) rfl
  | .storer32 => runs_storeBeneath (by decide) rfl
  | .storer64 => runs_storeBeneath (by decide) rfl
  | .storerpop8 => runs_storeBeneath (by decide) rfl
  | .storerpop16 => runs_storeBeneath (by decide) rfl
  | .storerpop32 => runs_storeBeneath (by decide) rfl
  | .storerpop64 => runs_storeBeneath (by decide) rfl
  | .storersfp8 => runs_storeBeneath (by decide) rfl
  | .storersfp16 => runs_storeBeneath (by decide) rfl
  | .storersfp32 => runs_storeBeneath (by decide) rfl
  | .storersfp64 => runs_storeBeneath (by decide) rfl
  | .storerpopsfp8 => runs_storeBeneath (by decide) rfl
  | .storerpopsfp16 => runs_storeBeneath (by decide) rfl
  | .storerpopsfp32 => runs_storeBeneath (by decide) rfl
  | .storerpopsfp64 => runs_storeBeneath (by decide) rfl
  | .setsbp _ => ⟨_, rfl, .setSbp _ rfl⟩
  | .setsfp _ => ⟨_, rfl, .setSfp _ rfl⟩
  | .setsp _ => ⟨_, rfl, .setSp _ rfl⟩
  | .setslp _ => ⟨_, rfl, .setSlp _ rfl⟩
  | .nop => ⟨_, rfl, .jumped _ rfl⟩
  | .ext => ⟨_, rfl, .raised _⟩
  | .halt => ⟨_, rfl, .halted rfl⟩
  | .invalid => ⟨_, rfl, .raised _⟩

/-- Every instruction with a stack operand or result begins with its StackCheck (20_memory.md R61). -/
theorem exec_begins_with_stackCheck {i : Instr} {s : State} {nIn nOut : Nat} (h : i.stackUse s = some (nIn, nOut)) :
    ∃ k : Unit → Except FaultCause State, exec i s = finish s (stackCheck s nIn nOut >>= k) := by
  cases i <;> first | (cases h; done) | skip
  all_goals
    injection h with h
    injection h with h1 h2
    subst h1 h2
    exact ⟨_, rfl⟩

/-- A next state of an instruction is of one of the kinds. -/
theorem exec_effect {i : Instr} {s t : State} (h : exec i s = .next t) : Effect s i t := by
  obtain ⟨t', h', e⟩ := exec_runs i s
  rw [h'] at h
  injection h with h
  exact h ▸ e

/-- A next state of a step: the machine was running, and the fetch raised or an instruction was executed. -/
theorem step_next {s t : State} (h : step s = .next t) : s.status = .running ∧
    ((∃ c, fetchInstr s = .error c ∧ t = s.raise c) ∨ ∃ i, fetchInstr s = .ok i ∧ exec i s = .next t ∧ Effect s i t) := by
  unfold step at h
  split at h
  · rename_i hs
    refine ⟨hs, ?_⟩
    split at h
    · rename_i i hi
      exact .inr ⟨i, hi, h, exec_effect h⟩
    · rename_i c hc
      injection h with h
      exact .inl ⟨c, hc, h.symm⟩
  · cases h
  · cases h

end Sys2Proof.Machine
end

