-- ==== Sys2Proof/Laws/Tables.lean ====
section
/-! SUPPORT. For each table of Safety.lean: the shape that an instruction of the table has, with the operation it computes,
in one lemma for all widths. -/

namespace Sys2Proof

open Sys2Proof.Machine

variable {i : Instr} {s : State} {w : Width}

theorem exec_of_pushes {sg : Signedness} {z : Int} (h : i.pushes = some (w, sg, z)) (s : State) :
    ∃ v, exec i s = pushElem w v i.length s ∧ intVal sg v = z := by
  cases sg
  all_goals
    cases i <;> first | (cases h; done) | skip
  all_goals cases h
  all_goals first
    | exact ⟨_, rfl, congrArg Int.ofNat (zext_toNat _ _ (by decide))⟩
    | exact ⟨_, rfl, sext_toInt _ _ (by decide)⟩
    | exact ⟨_, rfl, rfl⟩

theorem exec_of_pops (h : i.pops = some w) (s : State) : exec i s = popElem w s := by
  cases i <;> first | (cases h; done) | skip
  all_goals cases h; rfl

theorem exec_of_dups (h : i.dups = some w) (s : State) : exec i s = dupElem w s := by
  cases i <;> first | (cases h; done) | skip
  all_goals cases h; rfl

theorem exec_of_setsBelow (h : i.setsBelow = some w) (s : State) : exec i s = setElem w s := by
  cases i <;> first | (cases h; done) | skip
  all_goals cases h; rfl

/-- The function of a conversion. -/
def Conversion.fn (k : Conversion) (wa wr : Width) : Elem wa → Elem wr :=
  match k with
  | .zeroExtend => zext wr
  | .signExtend => sext wr
  | .truncate => trunc wr

theorem exec_of_converts {wa wr : Width} {k : Conversion} (h : i.converts = some (wa, wr, k)) (s : State) :
    exec i s = unary wa wr (k.fn wa wr) s ∧ (k ≠ .truncate → wa.bits ≤ wr.bits) := by
  cases i <;> first | (cases h; done) | skip
  all_goals cases h
  all_goals exact ⟨rfl, by decide⟩

theorem Conversion.fn_holds {wa wr : Width} {k : Conversion} (h : k ≠ .truncate → wa.bits ≤ wr.bits) (a : Elem wa) :
    k.Holds a (k.fn wa wr a) := by
  cases k
  · exact zext_toNat wr a (h (by decide))
  · exact sext_toInt wr a (h (by decide))
  · exact trunc_toNat wr a

/-- The function of an additive operation. -/
def Additive.fn (op : Additive) {n : Nat} (a b : BitVec n) : BitVec n :=
  match op with
  | .plus => addElem a b
  | .minus => subElem a b
  | .minusReversed => subElem b a

theorem exec_of_adds {op : Additive} (h : i.adds = some (w, op)) (s : State) :
    exec i s = binaryPure w w w op.fn s := by
  cases i <;> first | (cases h; done) | skip
  all_goals cases h; rfl

theorem Additive.fn_toNat (op : Additive) {n : Nat} (a b : BitVec n) :
    ((op.fn a b).toNat : Int) = op.value a.toNat b.toNat % 2 ^ n := by
  cases op
  · exact addElem_toNat a b
  · exact subElem_toNat a b
  · exact subElem_toNat b a

/-- The function of a multiplication. -/
def mulFn (sg : Signedness) {n : Nat} (a b : BitVec n) : BitVec n :=
  match sg with
  | .unsigned => muluElem a b
  | .signed => muliElem a b

theorem exec_of_muls {sg : Signedness} (h : i.muls = some (w, sg)) (s : State) :
    exec i s = binaryPure w w w (mulFn sg) s := by
  cases i <;> first | (cases h; done) | skip
  all_goals cases h; rfl

theorem mulFn_toNat (sg : Signedness) {n : Nat} (a b : BitVec n) :
    ((mulFn sg a b).toNat : Int) = intVal sg a * intVal sg b % 2 ^ n := by
  cases sg
  · exact muluElem_toNat a b
  · exact muliElem_toNat a b

/-- The function of a division or remainder. -/
def divFn (d : DivOverflow) (sg : Signedness) (p : DivPart) (o : DivOrder) {n : Nat} (a b : BitVec n) :
    Except FaultCause (BitVec n) :=
  match sg, p with
  | .unsigned, .quotient => quotU (o.dividend a b) (o.divisor a b)
  | .unsigned, .remainder => remU (o.dividend a b) (o.divisor a b)
  | .signed, .quotient => quotI d (o.dividend a b) (o.divisor a b)
  | .signed, .remainder => remI d (o.dividend a b) (o.divisor a b)

theorem exec_of_divides {sg : Signedness} {p : DivPart} {o : DivOrder} (h : i.divides = some (w, sg, p, o)) (s : State) :
    exec i s = binary w w w (divFn s.cfg.divOverflow sg p o) s := by
  cases i <;> first | (cases h; done) | skip
  all_goals cases h; rfl

theorem exec_of_shifts {op : ShiftOp} (h : i.shifts = some (w, op)) (s : State) :
    exec i s = binaryPure w .w8 w (shiftElem op) s := by
  cases i <;> first | (cases h; done) | skip
  all_goals cases h; rfl

/-- The function of a binary bitwise operation. -/
def BitOp.fn (op : BitOp) {n : Nat} (a b : BitVec n) : BitVec n :=
  match op with
  | .band => a &&& b
  | .bor => a ||| b
  | .bxor => a ^^^ b

theorem exec_of_bitwise {op : BitOp} (h : i.bitwise = some (w, op)) (s : State) :
    exec i s = binaryPure w w w op.fn s := by
  cases i <;> first | (cases h; done) | skip
  all_goals cases h; rfl

theorem exec_of_inverts (h : i.inverts = some w) (s : State) : exec i s = unary w w (fun a => ~~~a) s := by
  cases i <;> first | (cases h; done) | skip
  all_goals cases h; rfl

/-- The condition of a binary Boolean operation or a comparison. -/
def Relation.fn (r : Relation) (sg : Signedness) {n : Nat} (a b : BitVec n) : Bool :=
  match r with
  | .bothTrue => truth a && truth b
  | .anyTrue => truth a || truth b
  | .eq => condEq a b
  | .ne => condNe a b
  | .gt => condGt sg a b
  | .lt => condLt sg a b
  | .ge => condGe sg a b
  | .le => condLe sg a b

theorem exec_of_connects {r : Relation} (h : i.connects = some (w, r)) (s : State) :
    exec i s = binaryBool w (r.fn .unsigned) s := by
  cases i <;> first | (cases h; done) | skip
  all_goals cases h; rfl

theorem exec_of_compares {r : Relation} {sg : Signedness} (h : i.compares = some (w, r, sg)) (s : State) :
    exec i s = binaryBool w (r.fn sg) s ∧ r ≠ .bothTrue ∧ r ≠ .anyTrue ∧ (r = .eq ∨ r = .ne → sg = .unsigned) := by
  cases i <;> first | (cases h; done) | skip
  all_goals cases h
  all_goals exact ⟨rfl, by decide⟩

theorem exec_of_negates (h : i.negates = some w) (s : State) : exec i s = unaryBool w (fun a => !truth a) s := by
  cases i <;> first | (cases h; done) | skip
  all_goals cases h; rfl

/-- A relative target, as an address a signed distance from PC. -/
theorem relTarget_eq (s : State) {n : Nat} (offset : BitVec n) (hn : n ≤ 64) :
    relTarget s offset = relative s.pc offset.toInt := by
  apply eq_of_modEq
  rw [relative, toNat_ofInt_emod, relTarget, BitVec.toNat_add]
  have h := toInt_modEq (offset.signExtend 64)
  rw [BitVec.toInt_signExtend_of_le hn] at h
  push_cast
  refine (Int.mod_modEq _ _).trans (Int.ModEq.trans ?_ (Int.mod_modEq _ _).symm)
  exact h.add_left _

theorem exec_of_branches {target : Addr} (h : i.branches s.pc = some (w, target)) :
    exec i s = branchZero w target i.length s := by
  cases i <;> first | (cases h; done) | skip
  case brz8 | brz16 | brz32 | brz64 => cases h; rfl
  all_goals
    injection h with h
    injection h with hw ht
    subst hw ht
    exact congrArg (fun a => branchZero _ a _ s) (relTarget_eq s _ (by decide))

/-- The shape of a load. -/
def loadShape (w : Width) (mode : AddrMode) (form : LoadForm) (s : State) : Result :=
  match form with
  | .keep => loadKeep w mode s
  | .pop => loadPop w mode s

theorem exec_of_loads {mode : AddrMode} {form : LoadForm} (h : i.loads = some (w, mode, form)) (s : State) :
    exec i s = loadShape w mode form s := by
  cases i <;> first | (cases h; done) | skip
  all_goals cases h; rfl

theorem exec_of_stores {mode : AddrMode} {nPop : Nat} (h : i.stores = some (w, mode, nPop)) (s : State) :
    exec i s = storeTop w mode nPop s := by
  cases i <;> first | (cases h; done) | skip
  all_goals cases h; rfl

theorem exec_of_storesReversed {mode : AddrMode} {nPop : Nat} (h : i.storesReversed = some (w, mode, nPop))
    (s : State) : exec i s = storeBeneath w mode nPop s := by
  cases i <;> first | (cases h; done) | skip
  all_goals cases h; rfl

end Sys2Proof
end

