-- ==== Sys2Proof/Tests/Slice0.lean ====
section
/-! SUPPORT. Tests: every op code's decoding, well-formedness, single steps from spec 95_test_vectors.md (the name of
the vector stands before each), and for every statement with hypotheses a state and operands that meet them all. -/

-- The kernel evaluates each test when Lean reads it, not in a thread of its own: so many threads need too much memory.
set_option Elab.async false

namespace Sys2Proof.Tests

open Sys2Proof.Machine

/-! ## Decoding: words written from opcode_table.json, each immediate with a byte of its own in every place -/

/-- What the decoder reads from table words, given with their numbers of bits. -/
def reads (ws : List (Nat × Nat)) : List Instr := ws.filterMap fun w => decodeTableWord w.1 w.2

theorem test_decode_push : reads
    [(16, 0x8500), (16, 0x8501), (16, 0x8502), (16, 0x8503), (16, 0x8504), (16, 0x8505), (16, 0x8506), (24,
     0x923407), (24, 0x923408), (24, 0x923409), (24, 0x92340A), (24, 0x92340B), (40, 0x923456780C), (40,
     0x923456780D), (40, 0x923456780E), (72, 0x923456789ABCDEF00F)] =
    [.push8 0x85, .push8asu16 0x85, .push8asu32 0x85, .push8asu64 0x85, .push8asi16 0x85, .push8asi32 0x85,
     .push8asi64 0x85, .push16 0x9234, .push16asu32 0x9234, .push16asu64 0x9234, .push16asi32 0x9234,
     .push16asi64 0x9234, .push32 0x92345678, .push32asu64 0x92345678, .push32asi64 0x92345678, .push64
     0x923456789ABCDEF0] := by
  decide +kernel

theorem test_decode_pop : reads
    [(8, 0x10), (8, 0x11), (8, 0x12), (8, 0x13)] =
    [.pop8, .pop16, .pop32, .pop64] := by
  decide +kernel

theorem test_decode_dup_set : reads
    [(8, 0x14), (8, 0x15), (8, 0x16), (8, 0x17), (8, 0x18), (8, 0x19), (8, 0x1A), (8, 0x1B)] =
    [.dup8, .dup16, .dup32, .dup64, .set8, .set16, .set32, .set64] := by
  decide +kernel

theorem test_decode_promotion_demotion : reads
    [(8, 0x1C), (8, 0x1D), (8, 0x1E), (8, 0x1F), (8, 0x20), (8, 0x21), (8, 0x22), (8, 0x23), (8, 0x24), (8,
     0x25), (8, 0x26), (8, 0x27), (8, 0x28), (8, 0x29), (8, 0x2A)] =
    [.prom8u16, .prom8u32, .prom8u64, .prom8i16, .prom8i32, .prom8i64, .prom16u32, .prom16u64, .prom16i32,
     .prom16i64, .prom32u64, .prom32i64, .dem64to16, .dem64to8, .dem32to8] := by
  decide +kernel

theorem test_decode_add_mul : reads
    [(8, 0x2B), (8, 0x2C), (8, 0x2D), (8, 0x2E), (8, 0x2F), (8, 0x30), (8, 0x31), (8, 0x32), (8, 0x33), (8,
     0x34), (8, 0x35), (8, 0x36), (8, 0x37), (8, 0x38), (8, 0x39), (8, 0x3A), (8, 0x3B), (8, 0x3C), (8, 0x3D),
     (8, 0x3E)] =
    [.add8, .add16, .add32, .add64, .sub8, .sub16, .sub32, .sub64, .subr8, .subr16, .subr32, .subr64,
     .mulu8, .mulu16, .mulu32, .mulu64, .muli8, .muli16, .muli32, .muli64] := by
  decide +kernel

theorem test_decode_div_mod : reads
    [(8, 0x3F), (8, 0x40), (8, 0x41), (8, 0x42), (8, 0x43), (8, 0x44), (8, 0x45), (8, 0x46), (8, 0x47), (8,
     0x48), (8, 0x49), (8, 0x4A), (8, 0x4B), (8, 0x4C), (8, 0x4D), (8, 0x4E), (8, 0x4F), (8, 0x50), (8, 0x51),
     (8, 0x52), (8, 0x53), (8, 0x54), (8, 0x55), (8, 0x56), (8, 0x57), (8, 0x58), (8, 0x59), (8, 0x5A), (8,
     0x5B), (8, 0x5C), (8, 0x5D), (8, 0x5E)] =
    [.divu8, .divu16, .divu32, .divu64, .divru8, .divru16, .divru32, .divru64, .divi8, .divi16, .divi32,
     .divi64, .divri8, .divri16, .divri32, .divri64, .modu8, .modu16, .modu32, .modu64, .modru8, .modru16,
     .modru32, .modru64, .modi8, .modi16, .modi32, .modi64, .modri8, .modri16, .modri32, .modri64] := by
  decide +kernel

theorem test_decode_shift : reads
    [(8, 0x5F), (8, 0x60), (8, 0x61), (8, 0x62), (8, 0x63), (8, 0x64), (8, 0x65), (8, 0x66), (8, 0x67), (8,
     0x68), (8, 0x69), (8, 0x6A)] =
    [.lshift8, .lshift16, .lshift32, .lshift64, .rshiftu8, .rshiftu16, .rshiftu32, .rshiftu64, .rshifti8,
     .rshifti16, .rshifti32, .rshifti64] := by
  decide +kernel

theorem test_decode_bitwise : reads
    [(8, 0x6B), (8, 0x6C), (8, 0x6D), (8, 0x6E), (8, 0x6F), (8, 0x70), (8, 0x71), (8, 0x72), (8, 0x73), (8,
     0x74), (8, 0x75), (8, 0x76), (8, 0x77), (8, 0x78), (8, 0x79), (8, 0x7A)] =
    [.band8, .band16, .band32, .band64, .bor8, .bor16, .bor32, .bor64, .bxor8, .bxor16, .bxor32, .bxor64,
     .binv8, .binv16, .binv32, .binv64] := by
  decide +kernel

theorem test_decode_boolean : reads
    [(8, 0x7B), (8, 0x7C), (8, 0x7D), (8, 0x7E), (8, 0x7F), (8, 0x80), (8, 0x81), (8, 0x82), (8, 0x83), (8,
     0x84), (8, 0x85), (8, 0x86)] =
    [.land8, .land16, .land32, .land64, .lor8, .lor16, .lor32, .lor64, .linv8, .linv16, .linv32, .linv64] := by
  decide +kernel

theorem test_decode_compare : reads
    [(8, 0x87), (8, 0x88), (8, 0x89), (8, 0x8A), (8, 0x8B), (8, 0x8C), (8, 0x8D), (8, 0x8E), (8, 0x8F), (8,
     0x90), (8, 0x91), (8, 0x92), (8, 0x93), (8, 0x94), (8, 0x95), (8, 0x96), (8, 0x97), (8, 0x98), (8, 0x99),
     (8, 0x9A), (8, 0x9B), (8, 0x9C), (8, 0x9D), (8, 0x9E), (8, 0x9F), (8, 0xA0), (8, 0xA1), (8, 0xA2), (8,
     0xA3), (8, 0xA4), (8, 0xA5), (8, 0xA6), (8, 0xA7), (8, 0xA8), (8, 0xA9), (8, 0xAA), (8, 0xAB), (8, 0xAC),
     (8, 0xAD), (8, 0xAE)] =
    [.ceq8, .ceq16, .ceq32, .ceq64, .cne8, .cne16, .cne32, .cne64, .cgtu8, .cgtu16, .cgtu32, .cgtu64,
     .cgti8, .cgti16, .cgti32, .cgti64, .cltu8, .cltu16, .cltu32, .cltu64, .clti8, .clti16, .clti32,
     .clti64, .cgteu8, .cgteu16, .cgteu32, .cgteu64, .cgtei8, .cgtei16, .cgtei32, .cgtei64, .clteu8,
     .clteu16, .clteu32, .clteu64, .cltei8, .cltei16, .cltei32, .cltei64] := by
  decide +kernel

theorem test_decode_call_return : reads
    [(72, 0x923456789ABCDEF0AF), (8, 0xB0), (8, 0xB1)] =
    [.call 0x923456789ABCDEF0, .calls, .ret] := by
  decide +kernel

theorem test_decode_jump : reads
    [(72, 0x923456789ABCDEF0B2), (8, 0xB3), (16, 0x85B4), (24, 0x9234B5), (40, 0x92345678B6)] =
    [.jmp 0x923456789ABCDEF0, .jmps, .rjmpi8 0x85, .rjmpi16 0x9234, .rjmpi32 0x92345678] := by
  decide +kernel

theorem test_decode_branch : reads
    [(72, 0x923456789ABCDEF0B7), (72, 0x923456789ABCDEF0B8), (72, 0x923456789ABCDEF0B9), (72,
     0x923456789ABCDEF0BA), (16, 0x85BB), (24, 0x9234BC), (40, 0x92345678BD), (16, 0x85BE), (24, 0x9234BF), (40,
     0x92345678C0), (16, 0x85C1), (24, 0x9234C2), (40, 0x92345678C3), (16, 0x85C4), (24, 0x9234C5), (40,
     0x92345678C6)] =
    [.brz8 0x923456789ABCDEF0, .brz16 0x923456789ABCDEF0, .brz32 0x923456789ABCDEF0, .brz64
     0x923456789ABCDEF0, .rbrz8i8 0x85, .rbrz8i16 0x9234, .rbrz8i32 0x92345678, .rbrz16i8 0x85, .rbrz16i16
     0x9234, .rbrz16i32 0x92345678, .rbrz32i8 0x85, .rbrz32i16 0x9234, .rbrz32i32 0x92345678, .rbrz64i8
     0x85, .rbrz64i16 0x9234, .rbrz64i32 0x92345678] := by
  decide +kernel

theorem test_decode_load : reads
    [(8, 0xC7), (8, 0xC8), (8, 0xC9), (8, 0xCA), (8, 0xCB), (8, 0xCC), (8, 0xCD), (8, 0xCE), (8, 0xCF), (8,
     0xD0), (8, 0xD1), (8, 0xD2), (8, 0xD3), (8, 0xD4), (8, 0xD5), (8, 0xD6)] =
    [.load8, .load16, .load32, .load64, .loadpop8, .loadpop16, .loadpop32, .loadpop64, .loadsfp8,
     .loadsfp16, .loadsfp32, .loadsfp64, .loadpopsfp8, .loadpopsfp16, .loadpopsfp32, .loadpopsfp64] := by
  decide +kernel

theorem test_decode_store : reads
    [(8, 0xD7), (8, 0xD8), (8, 0xD9), (8, 0xDA), (8, 0xDB), (8, 0xDC), (8, 0xDD), (8, 0xDE), (8, 0xDF), (8,
     0xE0), (8, 0xE1), (8, 0xE2), (8, 0xE3), (8, 0xE4), (8, 0xE5), (8, 0xE6)] =
    [.store8, .store16, .store32, .store64, .storepop8, .storepop16, .storepop32, .storepop64, .storesfp8,
     .storesfp16, .storesfp32, .storesfp64, .storepopsfp8, .storepopsfp16, .storepopsfp32, .storepopsfp64] := by
  decide +kernel

theorem test_decode_store_reversed : reads
    [(8, 0xE7), (8, 0xE8), (8, 0xE9), (8, 0xEA), (8, 0xEB), (8, 0xEC), (8, 0xED), (8, 0xEE), (8, 0xEF), (8,
     0xF0), (8, 0xF1), (8, 0xF2), (8, 0xF3), (8, 0xF4), (8, 0xF5), (8, 0xF6)] =
    [.storer8, .storer16, .storer32, .storer64, .storerpop8, .storerpop16, .storerpop32, .storerpop64,
     .storersfp8, .storersfp16, .storersfp32, .storersfp64, .storerpopsfp8, .storerpopsfp16,
     .storerpopsfp32, .storerpopsfp64] := by
  decide +kernel

theorem test_decode_misc : reads
    [(72, 0x923456789ABCDEF0F7), (72, 0x923456789ABCDEF0F8), (72, 0x923456789ABCDEF0F9), (72,
     0x923456789ABCDEF0FA), (8, 0xFB), (8, 0xFC), (8, 0xFD), (8, 0xFE)] =
    [.setsbp 0x923456789ABCDEF0, .setsfp 0x923456789ABCDEF0, .setsp 0x923456789ABCDEF0, .setslp
     0x923456789ABCDEF0, .nop, .ext, .halt, .invalid] := by
  decide +kernel

/-- The byte no mnemonic has, a word cut short of its immediate, and no byte at all. -/
theorem test_decode_refuses :
    decodeTableWord 8 0xFF = none ∧ decode Config.defaultOpc [0x07, 0x34] = .error (.truncated 2 1) ∧
      decode Config.defaultOpc [] = .error .empty := by decide +kernel

/-! ## Well-formedness: an ill-formed term for each check -/

theorem test_opcWf_refuses_too_few : opcWf (Config.defaultOpc.drop 1) = false := by decide +kernel

theorem test_opcWf_refuses_duplicate : opcWf (List.replicate 255 0x00) = false := by
  have h : ¬ (List.replicate 255 (0x00 : Byte)).Nodup := by
    rw [List.nodup_replicate]
    decide
  rw [opcWf, decide_eq_false h, Bool.and_false]

theorem test_platform_refuses_bad_numbering :
    ({ Config.defaultPlatform with opc := List.replicate 255 0x00 } : Platform).wf = false :=
  test_opcWf_refuses_duplicate

theorem test_instr_accepts : (Instr.push8 0x05).wf [0x30, 0x31] = true := by decide +kernel

theorem test_instr_refuses_missing : (Instr.push8asu32 0x05).wf [0x30, 0x31] = false := by decide +kernel

theorem test_instr_refuses_shadowed : (Instr.push8asu16 0x05).wf [0x30, 0x30] = false := by decide +kernel

theorem test_memory_accepts : Memory.wf [(3, 1), (2 ^ 64 - 1, 2)] = true := by decide +kernel

theorem test_memory_refuses_order : Memory.wf [(4, 1), (3, 1)] = false := by decide +kernel

theorem test_memory_refuses_twice : Memory.wf [(4, 1), (4, 2)] = false := by decide +kernel

theorem test_memory_refuses_unlisted_value : Memory.wf [(4, 0)] = false := by decide +kernel

theorem test_memory_refuses_large_address : Memory.wf [(2 ^ 64, 1)] = false := by decide +kernel

/-! ## Single steps: the vectors of 95_test_vectors.md section 2 -/

/-- Elements, given with their sizes and the top one first, laid from an address up. -/
def lay : List (Nat × Nat) → Addr → Memory → Memory
  | [], _, m => m
  | (v, n) :: es, a, m => lay es (up a n) (m.storeLE a n v)

/-- The standard state of the vectors with another PC and SP: an instruction's bytes at PC, and the stack's elements,
with their sizes and the deepest first. -/
def stdAt (pc sp : Addr) (code : List Nat) (stack : List (Nat × Nat)) : State :=
  State.launch Config.defaultPlatform (lay stack.reverse sp (lay (code.map fun b => (b, 1)) pc []))
    pc 0x9000 0x9000 sp 0x8000

/-- The standard state of the vectors. -/
def std (code : List Nat) (stack : List (Nat × Nat)) : State := stdAt 0x1000 0x8800 code stack

/-- Another SFP. -/
def withSfp (v : Addr) (s : State) : State := { s with sfp := v }

/-- n bytes of memory that make the number v. -/
def poke (a : Addr) (n v : Nat) (s : State) : State := { s with mem := s.mem.storeLE a n v }

/-- No memory at lo to hi. -/
def withHole (lo hi : Addr) (s : State) : State := { s with cfg := { s.cfg with holes := [⟨lo, hi⟩] } }

/-- BOOLW = 8. -/
def withByteResults (s : State) : State := { s with cfg := { s.cfg with boolw := .byte } }

/-- DIV_OVERFLOW = wrap. -/
def withWrap (s : State) : State := { s with cfg := { s.cfg with divOverflow := .wrap } }

/-- The next state, if there is one. -/
def after (s : State) : State :=
  match step s with
  | .next t => t
  | _ => s

/-- PC, SP and the number that the n bytes from SP make after a step of a machine that still runs. -/
def ends (s : State) (n : Nat) : Option (Nat × Nat × Nat) :=
  if (after s).status = .running then some ((after s).pc.toNat, (after s).sp.toNat, (after s).mem.loadLE (after s).sp n)
  else none

/-- The cause that a step raised, if nothing but the status changed. -/
def raised (s : State) : Option FaultCause :=
  match (after s).status with
  | .faulted c => if after s = s.raise c then some c else none
  | _ => none

/-- P.3. -/
theorem test_push8asi16_extends_sign :
    ends (std [0x04, 0x80] []) 2 = some (0x1002, 0x87FE, 0xFF80) := by decide +kernel

/-- P.6. -/
theorem test_push16_little_endian :
    ends (std [0x07, 0x34, 0x12] []) 2 = some (0x1003, 0x87FE, 0x1234) := by decide +kernel

/-- P.7. -/
theorem test_push16asu64_extends_zero :
    ends (std [0x09, 0x00, 0x80] []) 8 = some (0x1003, 0x87F8, 0x0000000000008000) := by decide +kernel

/-- P.10. -/
theorem test_push32asi64_extends_sign :
    ends (std [0x0E, 0x00, 0x00, 0x00, 0x80] []) 8 = some (0x1005, 0x87F8, 0xFFFFFFFF80000000) := by decide +kernel

/-- P.12. -/
theorem test_push8_lies_below_old_top :
    ends (std [0x00, 0x11] [(0x2233, 2)]) 3 = some (0x1002, 0x87FF, 0x223311) := by decide +kernel

/-- P.15. -/
theorem test_pop32_leaves_high_half :
    ends (std [0x12] [(0x1122334455667788, 8)]) 4 = some (0x1001, 0x8804, 0x11223344) := by decide +kernel

/-- P.16. -/
theorem test_dup16 :
    ends (std [0x15] [(0xBEEF, 2)]) 4 = some (0x1001, 0x87FE, 0xBEEFBEEF) := by decide +kernel

/-- P.18. -/
theorem test_set8_keeps_top :
    ends (std [0x18] [(0x11, 1), (0x22, 1)]) 1 = some (0x1001, 0x8801, 0x22) := by decide +kernel

/-- P.20. -/
theorem test_push64_overflow :
    raised (stdAt 0x1000 0x8004 [0x0F, 0x01, 0x00, 0x00, 0x00, 0x00, 0x00, 0x00, 0x00] []) = some .stackOverflow := by
  decide +kernel

/-- P.23. -/
theorem test_pop8_underflow :
    raised (stdAt 0x1000 0x9000 [0x10] []) = some .stackUnderflow := by decide +kernel

/-- P.28. -/
theorem test_pop64_across_window :
    ends (withSfp 0x8800 (std [0x13] [(0x0000000000000000, 8)])) 0 = some (0x1001, 0x8808, 0) := by decide +kernel

/-- P.29. -/
theorem test_dup8_frame_fault :
    raised (withSfp 0x8800 (std [0x14] [(0x77, 1)])) = some (.frameFault 0x8800) := by decide +kernel

/-- M.2. -/
theorem test_prom8i16 :
    ends (std [0x1F] [(0x80, 1)]) 2 = some (0x1001, 0x87FF, 0xFF80) := by decide +kernel

/-- M.4. -/
theorem test_prom8u64 :
    ends (std [0x1E] [(0xFF, 1)]) 8 = some (0x1001, 0x87F9, 0x00000000000000FF) := by decide +kernel

/-- M.9. -/
theorem test_prom16i64 :
    ends (std [0x25] [(0x8001, 2)]) 8 = some (0x1001, 0x87FA, 0xFFFFFFFFFFFF8001) := by decide +kernel

/-- M.10. -/
theorem test_prom32u64 :
    ends (std [0x26] [(0x80000000, 4)]) 8 = some (0x1001, 0x87FC, 0x0000000080000000) := by decide +kernel

/-- M.13. -/
theorem test_dem64to16 :
    ends (std [0x28] [(0x1122334455667788, 8)]) 2 = some (0x1001, 0x8806, 0x7788) := by decide +kernel

/-- M.16. -/
theorem test_dem64to8_element_below :
    ends (std [0x29] [(0xAAAA, 2), (0xFFFFFFFFFFFFFF00, 8)]) 3 = some (0x1001, 0x8807, 0xAAAA00) := by decide +kernel

/-- M.17. -/
theorem test_prom8u64_overflow :
    raised (stdAt 0x1000 0x8006 [0x1E] [(0x01, 1)]) = some .stackOverflow := by decide +kernel

/-- A.1. -/
theorem test_add8_wraps :
    ends (std [0x2B] [(0xFF, 1), (0x01, 1)]) 1 = some (0x1001, 0x8801, 0x00) := by decide +kernel

/-- A.4. -/
theorem test_add64_wraps :
    ends (std [0x2E] [(0xFFFFFFFFFFFFFFFF, 8), (0x0000000000000002, 8)]) 8 = some (0x1001, 0x8808, 0x0000000000000001) := by
  decide +kernel

/-- A.5. -/
theorem test_sub8_operand_order :
    ends (std [0x2F] [(0x05, 1), (0x03, 1)]) 1 = some (0x1001, 0x8801, 0x02) := by decide +kernel

/-- A.6. -/
theorem test_subr8_operand_order :
    ends (std [0x33] [(0x05, 1), (0x03, 1)]) 1 = some (0x1001, 0x8801, 0xFE) := by decide +kernel

/-- A.13. -/
theorem test_muli8_wraps :
    ends (std [0x3B] [(0x80, 1), (0xFF, 1)]) 1 = some (0x1001, 0x8801, 0x80) := by decide +kernel

/-- A.14. -/
theorem test_muli32_signed :
    ends (std [0x3D] [(0xFFFFFFFE, 4), (0x00000003, 4)]) 4 = some (0x1001, 0x8804, 0xFFFFFFFA) := by decide +kernel

/-- A.15. -/
theorem test_mulu64_drops_high_half :
    ends (std [0x3A] [(0x0000000100000000, 8), (0x0000000100000000, 8)]) 8 = some (0x1001, 0x8808, 0x0000000000000000) := by
  decide +kernel

/-- A.17. -/
theorem test_divu8 :
    ends (std [0x3F] [(0xFF, 1), (0x02, 1)]) 1 = some (0x1001, 0x8801, 0x7F) := by decide +kernel

/-- A.18. -/
theorem test_divi8_rounds_to_zero :
    ends (std [0x47] [(0xFF, 1), (0x02, 1)]) 1 = some (0x1001, 0x8801, 0x00) := by decide +kernel

/-- A.19. -/
theorem test_divi8_negative :
    ends (std [0x47] [(0xF9, 1), (0x02, 1)]) 1 = some (0x1001, 0x8801, 0xFD) := by decide +kernel

/-- A.20. -/
theorem test_modi8_sign_of_dividend :
    ends (std [0x57] [(0xF9, 1), (0x02, 1)]) 1 = some (0x1001, 0x8801, 0xFF) := by decide +kernel

/-- A.22. -/
theorem test_modi8_negative_divisor :
    ends (std [0x57] [(0x07, 1), (0xFE, 1)]) 1 = some (0x1001, 0x8801, 0x01) := by decide +kernel

/-- A.25. -/
theorem test_modu8 :
    ends (std [0x4F] [(0xF9, 1), (0x02, 1)]) 1 = some (0x1001, 0x8801, 0x01) := by decide +kernel

/-- A.26. -/
theorem test_divru8_order :
    ends (std [0x43] [(0x02, 1), (0x0F, 1)]) 1 = some (0x1001, 0x8801, 0x07) := by decide +kernel

/-- A.27. -/
theorem test_modru8_order :
    ends (std [0x53] [(0x04, 1), (0x0F, 1)]) 1 = some (0x1001, 0x8801, 0x03) := by decide +kernel

/-- A.28. -/
theorem test_divri16_order :
    ends (std [0x4C] [(0x0002, 2), (0xFFF9, 2)]) 2 = some (0x1001, 0x8802, 0xFFFD) := by decide +kernel

/-- A.29. -/
theorem test_modri16_order :
    ends (std [0x5C] [(0x0002, 2), (0xFFF9, 2)]) 2 = some (0x1001, 0x8802, 0xFFFF) := by decide +kernel

/-- A.35. -/
theorem test_divu8_by_zero :
    raised (std [0x3F] [(0x09, 1), (0x00, 1)]) = some .divideByZero := by decide +kernel

/-- A.37. -/
theorem test_divru16_by_zero :
    raised (std [0x44] [(0x0000, 2), (0x0009, 2)]) = some .divideByZero := by decide +kernel

/-- A.40. -/
theorem test_modi32_overflow :
    raised (std [0x59] [(0x80000000, 4), (0xFFFFFFFF, 4)]) = some .divideOverflow := by decide +kernel

/-- A.41. -/
theorem test_divri64_overflow :
    raised (std [0x4E] [(0xFFFFFFFFFFFFFFFF, 8), (0x8000000000000000, 8)]) = some .divideOverflow := by
  decide +kernel

/-- A.43. -/
theorem test_add8_underflow :
    raised (stdAt 0x1000 0x8FFF [0x2B] [(0x01, 1)]) = some .stackUnderflow := by decide +kernel

/-- A.45. -/
theorem test_add64_frame_fault :
    raised (withSfp 0x8808 (std [0x2E] [(0x0000000000000001, 8), (0x0000000000000002, 8)])) = some (.frameFault 0x8808) := by
  decide +kernel

/-- S.1. -/
theorem test_lshift8 :
    ends (std [0x5F] [(0x81, 1), (0x01, 1)]) 1 = some (0x1001, 0x8801, 0x02) := by decide +kernel

/-- S.5. -/
theorem test_lshift64_top_bit :
    ends (std [0x62] [(0x0000000000000001, 8), (0x3F, 1)]) 8 = some (0x1001, 0x8801, 0x8000000000000000) := by
  decide +kernel

/-- S.9. -/
theorem test_rshiftu32 :
    ends (std [0x65] [(0xF0000000, 4), (0x1C, 1)]) 4 = some (0x1001, 0x8801, 0x0000000F) := by decide +kernel

/-- S.10. -/
theorem test_rshifti32 :
    ends (std [0x69] [(0xF0000000, 4), (0x1C, 1)]) 4 = some (0x1001, 0x8801, 0xFFFFFFFF) := by decide +kernel

/-- S.12. -/
theorem test_rshifti16_rounds_down :
    ends (std [0x68] [(0xFFF9, 2), (0x01, 1)]) 2 = some (0x1001, 0x8801, 0xFFFC) := by decide +kernel

/-- S.17. -/
theorem test_band8 :
    ends (std [0x6B] [(0xF0, 1), (0x3C, 1)]) 1 = some (0x1001, 0x8801, 0x30) := by decide +kernel

/-- S.18. -/
theorem test_bor8 :
    ends (std [0x6F] [(0xF0, 1), (0x3C, 1)]) 1 = some (0x1001, 0x8801, 0xFC) := by decide +kernel

/-- S.19. -/
theorem test_bxor8 :
    ends (std [0x73] [(0xF0, 1), (0x3C, 1)]) 1 = some (0x1001, 0x8801, 0xCC) := by decide +kernel

/-- S.25. -/
theorem test_binv16 :
    ends (std [0x78] [(0x00FF, 2)]) 2 = some (0x1001, 0x8800, 0xFF00) := by decide +kernel

/-- B.2. -/
theorem test_land8 :
    ends (std [0x7B] [(0x02, 1), (0x00, 1)]) 1 = some (0x1001, 0x8801, 0x00) := by decide +kernel

/-- B.4. -/
theorem test_lor16 :
    ends (std [0x80] [(0x0000, 2), (0x0100, 2)]) 2 = some (0x1001, 0x8802, 0x0001) := by decide +kernel

/-- B.5. -/
theorem test_linv8_of_zero :
    ends (std [0x83] [(0x00, 1)]) 1 = some (0x1001, 0x8800, 0x01) := by decide +kernel

/-- B.7. -/
theorem test_linv32_of_nonzero :
    ends (std [0x85] [(0x00010000, 4)]) 4 = some (0x1001, 0x8800, 0x00000000) := by decide +kernel

/-- B.10. -/
theorem test_cne8 :
    ends (std [0x8B] [(0x05, 1), (0x05, 1)]) 1 = some (0x1001, 0x8801, 0x00) := by decide +kernel

/-- B.11. -/
theorem test_ceq32 :
    ends (std [0x89] [(0x80000000, 4), (0x00000000, 4)]) 4 = some (0x1001, 0x8804, 0x00000000) := by decide +kernel

/-- B.12. -/
theorem test_cgtu8 :
    ends (std [0x8F] [(0xFF, 1), (0x01, 1)]) 1 = some (0x1001, 0x8801, 0x01) := by decide +kernel

/-- B.13. -/
theorem test_cgti8 :
    ends (std [0x93] [(0xFF, 1), (0x01, 1)]) 1 = some (0x1001, 0x8801, 0x00) := by decide +kernel

/-- B.15. -/
theorem test_clti16 :
    ends (std [0x9C] [(0x8000, 2), (0x7FFF, 2)]) 2 = some (0x1001, 0x8802, 0x0001) := by decide +kernel

/-- B.16. -/
theorem test_cltu16 :
    ends (std [0x98] [(0x8000, 2), (0x7FFF, 2)]) 2 = some (0x1001, 0x8802, 0x0000) := by decide +kernel

/-- B.17. -/
theorem test_cgteu32 :
    ends (std [0xA1] [(0x00000007, 4), (0x00000007, 4)]) 4 = some (0x1001, 0x8804, 0x00000001) := by decide +kernel

/-- B.18. -/
theorem test_cgtei32 :
    ends (std [0xA5] [(0xFFFFFFFF, 4), (0x00000000, 4)]) 4 = some (0x1001, 0x8804, 0x00000000) := by decide +kernel

/-- B.19. -/
theorem test_clteu64 :
    ends (std [0xAA] [(0xFFFFFFFFFFFFFFFF, 8), (0x0000000000000000, 8)]) 8 = some (0x1001, 0x8808, 0x0000000000000000) := by
  decide +kernel

/-- B.20. -/
theorem test_cltei64 :
    ends (std [0xAE] [(0xFFFFFFFFFFFFFFFF, 8), (0x0000000000000000, 8)]) 8 = some (0x1001, 0x8808, 0x0000000000000001) := by
  decide +kernel

/-- B.24. -/
theorem test_cltu32_byte_result :
    ends (withByteResults (std [0x99] [(0x00000003, 4), (0x00000005, 4)])) 1 = some (0x1001, 0x8807, 0x01) := by
  decide +kernel

/-- B.25. -/
theorem test_linv64_byte_result :
    ends (withByteResults (std [0x86] [(0x0000000000000000, 8)])) 1 = some (0x1001, 0x8807, 0x01) := by
  decide +kernel

/-- C.1. -/
theorem test_call :
    ends (std [0xAF, 0x00, 0x20, 0x00, 0x00, 0x00, 0x00, 0x00, 0x00] [(0xAABBCCDD, 4)]) 20 = some (0x2000, 0x87F0,
      0xAABBCCDD00000000000090000000000000001009) ∧
      (after (std [0xAF, 0x00, 0x20, 0x00, 0x00, 0x00, 0x00, 0x00, 0x00] [(0xAABBCCDD, 4)])).sfp = 0x87F0 := by
  decide +kernel

/-- C.2. -/
theorem test_calls :
    ends (std [0xB0] [(0x0000000000002000, 8)]) 16 = some (0x2000, 0x87F8, 0x00000000000090000000000000001001) ∧
      (after (std [0xB0] [(0x0000000000002000, 8)])).sfp = 0x87F8 := by decide +kernel

/-- C.3. -/
theorem test_ret :
    ends (poke 0x87F8 8 0x0000000000009000 (poke 0x87F0 8 0x0000000000001009 (withSfp 0x87F0 (stdAt 0x1000 0x87E0 [0xB1]
      [])))) 0 = some (0x1009, 0x8800, 0) ∧
      (after (poke 0x87F8 8 0x0000000000009000 (poke 0x87F0 8 0x0000000000001009 (withSfp 0x87F0 (stdAt 0x1000 0x87E0 [0xB1]
        []))))).sfp = 0x9000 := by decide +kernel

/-- C.5. -/
theorem test_call_overflow :
    raised (stdAt 0x1000 0x800F [0xAF, 0x00, 0x20, 0x00, 0x00, 0x00, 0x00, 0x00, 0x00] []) = some .stackOverflow := by
  decide +kernel

/-- C.8. -/
theorem test_calls_overflow :
    raised (stdAt 0x1000 0x8007 [0xB0] [(0x0000000000002000, 8)]) = some .stackOverflow := by decide +kernel

/-- C.10. -/
theorem test_ret_underflow :
    raised (std [0xB1] []) = some .stackUnderflow := by decide +kernel

/-- J.1. -/
theorem test_jmp :
    ends (std [0xB2, 0xF0, 0xFF, 0xFF, 0xFF, 0xFF, 0xFF, 0xFF, 0xFF] []) 0 = some (0xFFFFFFFFFFFFFFF0, 0x8800, 0) := by
  decide +kernel

/-- J.2. -/
theorem test_jmps :
    ends (std [0xB3] [(0x0000000000002468, 8)]) 0 = some (0x2468, 0x8808, 0) := by decide +kernel

/-- J.4. -/
theorem test_rjmpi8_backward :
    ends (std [0xB4, 0xFE] []) 0 = some (0xFFE, 0x8800, 0) := by decide +kernel

/-- J.7. -/
theorem test_rjmpi16_wraps :
    ends (std [0xB5, 0x00, 0x80] []) 0 = some (0xFFFFFFFFFFFF9000, 0x8800, 0) := by decide +kernel

/-- J.9. -/
theorem test_rjmpi8_wraps :
    ends (stdAt 0xFFFFFFFFFFFFFFFF 0x8800 [0xB4, 0x02] []) 0 = some (0x1, 0x8800, 0) := by decide +kernel

/-- J.12. -/
theorem test_brz16_not_taken :
    ends (std [0xB8, 0x00, 0x30, 0x00, 0x00, 0x00, 0x00, 0x00, 0x00] [(0x0100, 2)]) 0 = some (0x1009, 0x8802, 0) := by
  decide +kernel

/-- J.13. -/
theorem test_brz32_taken :
    ends (std [0xB9, 0x00, 0x30, 0x00, 0x00, 0x00, 0x00, 0x00, 0x00] [(0x00000000, 4)]) 0 = some (0x3000, 0x8804, 0) := by
  decide +kernel

/-- J.16. -/
theorem test_rbrz8i8_not_taken :
    ends (std [0xBB, 0x10] [(0xFF, 1)]) 0 = some (0x1002, 0x8801, 0) := by decide +kernel

/-- J.19. -/
theorem test_rbrz32i16_backward :
    ends (std [0xC2, 0x00, 0xFF] [(0x00000000, 4)]) 0 = some (0xF00, 0x8804, 0) := by decide +kernel

/-- J.23. -/
theorem test_rbrz8i32_wraps :
    ends (std [0xBD, 0x00, 0x00, 0x00, 0x80] [(0x00, 1)]) 0 = some (0xFFFFFFFF80001000, 0x8801, 0) := by
  decide +kernel

/-- J.26. -/
theorem test_jmps_frame_fault :
    raised (withSfp 0x8807 (std [0xB3] [(0x0000000000002468, 8)])) = some (.frameFault 0x8807) := by decide +kernel

/-- L.1. -/
theorem test_load8 :
    ends (poke 0x2000 8 0x8877665544332211 (std [0xC7] [(0x0000000000002000, 8)])) 9 = some (0x1001, 0x87FF,
      0x000000000000200011) := by decide +kernel

/-- L.6. -/
theorem test_loadpop32 :
    ends (poke 0x2000 8 0x8877665544332211 (std [0xCD] [(0x0000000000002004, 8)])) 4 = some (0x1001, 0x8804, 0x88776655) := by
  decide +kernel

/-- L.8. -/
theorem test_loadsfp16 :
    ends (poke 0x9010 2 0xBEEF (std [0xD0] [(0x0000000000000010, 8)])) 10 = some (0x1001, 0x87FE, 0x0000000000000010BEEF) := by
  decide +kernel

/-- L.10. -/
theorem test_loadpopsfp8_wraps :
    ends (poke 0x0 1 0x99 (std [0xD3] [(0xFFFFFFFFFFFF7000, 8)])) 1 = some (0x1001, 0x8807, 0x99) := by
  decide +kernel

/-- L.12. -/
theorem test_load16_wraps :
    ends (poke 0x0 1 0x12 (poke 0xFFFFFFFFFFFFFFFF 1 0x34 (std [0xC8] [(0xFFFFFFFFFFFFFFFF, 8)]))) 10 = some (0x1001,
      0x87FE, 0xFFFFFFFFFFFFFFFF1234) := by decide +kernel

/-- L.14. -/
theorem test_store32 :
    ends (poke 0x2000 8 0x8877665544332211 (std [0xD9] [(0x0000000000002000, 8), (0xDEADBEEF, 4)])) 12 = some (0x1001,
      0x8800, 0x0000000000002000DEADBEEF) ∧
      (after (poke 0x2000 8 0x8877665544332211 (std [0xD9] [(0x0000000000002000, 8), (0xDEADBEEF, 4)]))).mem.loadLE 0x2000 8
        = 0x88776655DEADBEEF := by decide +kernel

/-- L.15. -/
theorem test_storepop16 :
    ends (std [0xDC] [(0x0000000000002000, 8), (0x1234, 2)]) 8 = some (0x1001, 0x8802, 0x0000000000002000) ∧
      (after (std [0xDC] [(0x0000000000002000, 8), (0x1234, 2)])).mem.loadLE 0x2000 2 = 0x1234 := by decide +kernel

/-- L.17. -/
theorem test_storesfp32 :
    ends (std [0xE1] [(0xFFFFFFFFFFFFFFFC, 8), (0x11223344, 4)]) 12 = some (0x1001, 0x8800, 0xFFFFFFFFFFFFFFFC11223344) ∧
      (after (std [0xE1] [(0xFFFFFFFFFFFFFFFC, 8), (0x11223344, 4)])).mem.loadLE 0x8FFC 4 = 0x11223344 := by
  decide +kernel

/-- L.18. -/
theorem test_storepopsfp8 :
    ends (std [0xE3] [(0x0000000000000010, 8), (0x5A, 1)]) 8 = some (0x1001, 0x8801, 0x0000000000000010) ∧
      (after (std [0xE3] [(0x0000000000000010, 8), (0x5A, 1)])).mem.loadLE 0x9010 1 = 0x5A := by decide +kernel

/-- L.19. -/
theorem test_storer8 :
    ends (std [0xE7] [(0xAB, 1), (0x0000000000002000, 8)]) 9 = some (0x1001, 0x8800, 0xAB0000000000002000) ∧
      (after (std [0xE7] [(0xAB, 1), (0x0000000000002000, 8)])).mem.loadLE 0x2000 1 = 0xAB := by decide +kernel

/-- L.20. -/
theorem test_storerpop32 :
    ends (std [0xED] [(0xDEADBEEF, 4), (0x0000000000002000, 8)]) 4 = some (0x1001, 0x8808, 0xDEADBEEF) ∧
      (after (std [0xED] [(0xDEADBEEF, 4), (0x0000000000002000, 8)])).mem.loadLE 0x2000 4 = 0xDEADBEEF := by
  decide +kernel

/-- L.22. -/
theorem test_storersfp16 :
    ends (std [0xF0] [(0xBEEF, 2), (0xFFFFFFFFFFFFFFFE, 8)]) 10 = some (0x1001, 0x8800, 0xBEEFFFFFFFFFFFFFFFFE) ∧
      (after (std [0xF0] [(0xBEEF, 2), (0xFFFFFFFFFFFFFFFE, 8)])).mem.loadLE 0x8FFE 2 = 0xBEEF := by decide +kernel

/-- L.23. -/
theorem test_storerpopsfp64 :
    ends (std [0xF6] [(0x0123456789ABCDEF, 8), (0xFFFFFFFFFFFFFFF8, 8)]) 8 = some (0x1001, 0x8808, 0x0123456789ABCDEF) ∧
      (after (std [0xF6] [(0x0123456789ABCDEF, 8), (0xFFFFFFFFFFFFFFF8, 8)])).mem.loadLE 0x8FF8 8 = 0x0123456789ABCDEF := by
  decide +kernel

/-- L.24. -/
theorem test_store64_over_itself :
    ends (std [0xDA] [(0x00000000000087FC, 8), (0x0102030405060708, 8)]) 16 = some (0x1001, 0x8800,
      0x00000000000087FC0102030401020304) ∧
      (after (std [0xDA] [(0x00000000000087FC, 8), (0x0102030405060708, 8)])).mem.loadLE 0x87FC 8 = 0x0102030405060708 := by
  decide +kernel

/-- L.27. -/
theorem test_loadsfp8_window_end :
    raised (std [0xCF] [(0x000000000000000F, 8)]) = some (.frameFault 0x900F) := by decide +kernel

/-- L.28. -/
theorem test_loadsfp8_past_window :
    ends (poke 0x9010 1 0x42 (std [0xCF] [(0x0000000000000010, 8)])) 9 = some (0x1001, 0x87FF, 0x000000000000001042) := by
  decide +kernel

/-- L.30. -/
theorem test_loadsfp64_into_window :
    raised (std [0xD2] [(0xFFFFFFFFFFFFFFF9, 8)]) = some (.frameFault 0x9000) := by decide +kernel

/-- L.34. -/
theorem test_storepop64_frame_fault :
    raised (std [0xDE] [(0x0000000000009008, 8), (0x0000000000000BAD, 8)]) = some (.frameFault 0x9008) := by
  decide +kernel

/-- L.37. -/
theorem test_load32_access_fault :
    raised (withHole 0x5000 0x5FFF (std [0xC9] [(0x0000000000004FFE, 8)])) = some (.accessFault 0x5000) := by
  decide +kernel

/-- X.1. -/
theorem test_setsbp :
    ends (std [0xF7, 0x00, 0xA0, 0x00, 0x00, 0x00, 0x00, 0x00, 0x00] []) 0 = some (0x1009, 0x8800, 0) ∧
      (after (std [0xF7, 0x00, 0xA0, 0x00, 0x00, 0x00, 0x00, 0x00, 0x00] [])).sbp = 0xA000 := by decide +kernel

/-- X.3. -/
theorem test_setsp :
    ends (std [0xF9, 0x00, 0x70, 0x00, 0x00, 0x00, 0x00, 0x00, 0x00] []) 0 = some (0x1009, 0x7000, 0) := by
  decide +kernel

/-- X.7. -/
theorem test_halt :
    (after (std [0xFD] [])).status = .halted ∧ (after (std [0xFD] [])).pc = 0x1000 := by decide +kernel

/-- X.8. -/
theorem test_ext :
    raised (std [0xFC] []) = some .invalidInstruction := by decide +kernel

/-- X.10. -/
theorem test_unassigned_byte :
    raised (std [0xFF] []) = some .invalidInstruction := by decide +kernel

/-- X.13. -/
theorem test_unassigned_byte_before_immediate :
    raised (withHole 0x1001 0x1001 (std [0xFF] [])) = some .invalidInstruction := by decide +kernel

/-- X.14. -/
theorem test_push8_immediate_fault_before_overflow :
    raised (withHole 0x1001 0x1001 (stdAt 0x1000 0x8000 [0x00, 0x12] [])) = some (.accessFault 0x1001) := by
  decide +kernel

/-- X.15. -/
theorem test_setsp_inside_window :
    ends (withSfp 0x1000 (std [0xF9, 0x00, 0x70, 0x00, 0x00, 0x00, 0x00, 0x00, 0x00] [])) 0 = some (0x1009, 0x7000, 0) := by
  decide +kernel

/-- The first instruction after reset, placed at the reset PC (setsp, X.3). -/
theorem test_withFetchWord_runs_after_reset :
    (after (State.reset.withFetchWord 72 0x0000000000007000F9)).sp = 0x7000 ∧
      (after (State.reset.withFetchWord 72 0x0000000000007000F9)).pc = 0x1009 := by decide +kernel

/-! ## The hypotheses of the statements: for each, a state and operands that meet all of them, at the ends of their ranges

Each witness bears the name of its obligation. -/

/-- The next state of an instruction. -/
def done (i : Instr) (s : State) : State :=
  match exec i s with
  | .next t => t
  | _ => s

theorem exec_done (i : Instr) (s : State) : exec i s = .next (done i s) := by
  obtain ⟨t, h, -⟩ := exec_runs i s
  rw [done, h]

theorem step_after {s : State} (h : s.status = .running) : step s = .next (after s) := by
  have : ∃ t, step s = .next t := by
    unfold step
    rw [h]
    cases fetchInstr s with
    | ok i => exact ⟨_, exec_done i s⟩
    | error c => exact ⟨_, rfl⟩
  obtain ⟨t, h⟩ := this
  rw [after, h]

theorem default_wf : Config.defaultPlatform.wf = true := Laws.opcWf_default

theorem test_witness_DecodeReadsBackEncode :
    (Instr.call 0x9234).wf Config.defaultOpc = true ∧ (Instr.call 0x9234).wf Config.defaultOpc.reverse = true := by
  decide +kernel

theorem test_witness_EncodeWritesBackDecode :
    decode Config.defaultOpc [0x07, 0x34, 0x92, 0xFD] = .ok (.push16 0x9234, [0xFD]) := by decide +kernel

theorem test_witness_EveryInstrEncodable : opcWf Config.defaultOpc = true := Laws.opcWf_default

theorem test_witness_OpcodeByteFixesFormat :
    decode Config.defaultOpc (0x07 :: [0x34, 0x92]) = .ok (.push16 0x9234, []) ∧
      decode Config.defaultOpc (0x07 :: [0x00, 0x80, 0xFF]) = .ok (.push16 0x8000, [0xFF]) := by decide +kernel

theorem test_witness_TruncatedEncodingRefused :
    (Instr.push16 0x9234).wf Config.defaultOpc = true ∧ 2 < (Instr.push16 0x9234).length ∧
      (Instr.nop).wf Config.defaultOpc = true ∧ 0 < Instr.nop.length := by decide +kernel

theorem test_witness_StepRunsDecoded :
    let s := withHole 0x1002 0x1FFF (std [0x00, 0x5A] [])
    s.status = .running ∧ decode s.cfg.opc (s.mem.bytesAt s.pc maxLength) = .ok (.push8 0x5A, [0, 0, 0, 0, 0, 0, 0]) ∧
      MappedOk s s.pc (Instr.push8 0x5A).length := by decide +kernel

theorem test_witness_TerminalStatusTakesNoStep :
    (std [] []).halt.status = .halted ∧ ((std [] []).raise (.frameFault 0x9000)).status = .faulted (.frameFault 0x9000) :=
  ⟨rfl, rfl⟩

theorem test_witness_FetchFaults_opcode :
    let s := withHole 0x1000 0x1000 (std [0xFB] [])
    s.status = .running ∧ s.mapped s.pc = false := by decide +kernel

theorem test_witness_FetchFaults_immediate :
    let s := withHole 0x1008 0x1008 (std [0xF9, 0, 0x70] [])
    s.status = .running ∧ decode s.cfg.opc (s.mem.bytesAt s.pc maxLength) = .ok (.setsp 0x7000, []) ∧
      8 < (Instr.setsp 0x7000).length ∧ s.mapped (up s.pc 8) = false ∧ ∀ k < 8, s.mapped (up s.pc k) = true := by
  decide +kernel

theorem test_witness_UnassignedByteFaults :
    (0xFF : Byte) ∉ Config.defaultOpc ∧ (std [0xFF] []).status = .running ∧
      (std [0xFF] []).mapped 0x1000 = true ∧ (std [0xFF] []).mem.get 0x1000 ∉ (std [0xFF] []).cfg.opc := by decide +kernel

theorem test_witness_StepTotalAndPrecise : (std [0x10] []).status = .running := rfl

theorem test_witness_HaltedOnlyByHalt :
    (std [0xFD] []).status = .running ∧ step (std [0xFD] []) = .next (after (std [0xFD] [])) ∧
      (after (std [0xFD] [])).status = .halted := ⟨rfl, step_after rfl, by decide +kernel⟩

theorem test_witness_StepKeepsInv :
    Inv (std [0x00, 0x5A] []) ∧ step (std [0x00, 0x5A] []) = .next (after (std [0x00, 0x5A] [])) :=
  ⟨⟨by decide +kernel, default_wf⟩, step_after rfl⟩

theorem test_witness_LaunchHasInv :
    Config.defaultPlatform.wf = true ∧ Memory.wf [(0x1000, 0xFD), (2 ^ 64 - 1, 1)] = true :=
  ⟨default_wf, by decide +kernel⟩

theorem test_witness_RegistersChangeOnlyByTheirWriters :
    exec .nop (std [] []) = .next (done .nop (std [] [])) ∧ (∀ v, Instr.nop ≠ .setsbp v) ∧ (∀ v, Instr.nop ≠ .setslp v) ∧
      (∀ v, Instr.nop ≠ .setsfp v) ∧ (∀ v, Instr.nop ≠ .call v) ∧ Instr.nop ≠ .calls ∧ Instr.nop ≠ .ret ∧
      Instr.nop.stackUse (std [] []) = none ∧ ∀ v, Instr.nop ≠ .setsp v :=
  ⟨exec_done _ _, nofun, nofun, nofun, nofun, nofun, nofun, rfl, nofun⟩

theorem test_witness_WindowNeverWritten :
    let s := withSfp 0x87F0 (stdAt 0x1000 0x87F0 [0x00, 0x5A] [])
    step s = .next (after s) ∧ Within s.sfp 16 0x87F0 ∧ Within s.sfp 16 0x87FF := ⟨step_after rfl, by decide +kernel⟩

/-- A store beside the window, in two states that differ in the window's last byte. -/
theorem test_witness_WindowNeverRead :
    let s := std [] [(0x9010, 8), (0x01, 1)]
    Instr.store8 ≠ .ret ∧ SameOutside s.inWindow s (poke 0x900F 1 0xAA s) := by
  refine ⟨nofun, rfl, rfl, rfl, rfl, rfl, rfl, rfl, fun x hx => ?_⟩
  refine Memory.get_storeLE_of_not_within _ _ _ _ (by decide) fun h => ?_
  obtain ⟨j, hj, rfl⟩ := Within.eq_up h
  obtain rfl : j = 0 := by omega
  exact absurd hx (by decide +kernel)

theorem test_witness_UnmappedNeverWritten :
    let s := withHole 0x87FE 0x87FE (std [0x00, 0x5A] [])
    step s = .next (after s) ∧ s.mapped 0x87FE = false := ⟨step_after rfl, by decide +kernel⟩

theorem test_witness_StackCheckFaults :
    let s := stdAt 0x1000 0x8FFF [] [(0x01, 1)]
    let t := stdAt 0x1000 0x8007 [] [(0x01, 1)]
    Instr.add8.stackUse s = some (2, 1) ∧ s.sbp.toNat < s.sp.toNat + 2 ∧
      (Instr.push64 1).stackUse t = some (0, 8) ∧ t.sp.toNat + 0 ≤ t.sbp.toNat ∧ t.sp.toNat + 0 < t.slp.toNat + 8 := by
  decide +kernel

theorem test_witness_StackStaysInBounds :
    let s := stdAt 0x1000 0x8008 [] []
    s.status = .running ∧ (Instr.push64 1).stackUse s = some (0, 8) ∧ exec (.push64 1) s = .next (done (.push64 1) s) ∧
      (done (.push64 1) s).status = .running := ⟨rfl, rfl, exec_done _ _, by decide +kernel⟩

theorem test_witness_StackBytesInBounds :
    let s := stdAt 0x1000 0x8FFE [] [(0x01, 1), (0x02, 1)]
    StackOk s 2 1 ∧ s.slp.toNat ≤ s.sp.toNat ∧ Within s.sp 2 0x8FFF ∧ Within (resultAddr s 2 1) 1 0x8FFF := by
  decide +kernel

theorem test_witness_LittleEndianBytes : 8 ∈ [1, 2, 4, 8] ∧ 7 < 8 ∧ 4 + 4 ≤ 8 := by decide

theorem test_witness_StoreLeavesOtherBytes :
    8 ≤ 2 ^ 64 ∧ ¬ Within 0xFFFFFFFFFFFFFFFC 8 0x4 ∧ ¬ Within 0xFFFFFFFFFFFFFFFC 8 0xFFFFFFFFFFFFFFFB ∧
      Memory.wf [(0x4, 1)] = true := by decide +kernel

theorem test_witness_CanonicalMemoriesAreEqual :
    Memory.wf [(0x1000, 1)] = true ∧ Memory.wf (Memory.set (Memory.set [(0x1000, 1)] 0x1001 2) 0x1001 0) = true ∧
      ∀ x : Addr, Memory.get [(0x1000, 1)] x.toNat =
        (Memory.set (Memory.set [(0x1000, 1)] 0x1001 2) 0x1001 0).get x.toNat :=
  ⟨by decide +kernel, by decide +kernel, fun _ => rfl⟩

theorem test_witness_AccessPrimitives_ok :
    DataOk (std [] []) 0x8FF8 Width.w64.bytes ∧ DataOk (std [] []) 0x9010 Width.w64.bytes ∧
      MappedOk (std [] []) 0x9000 Width.w64.bytes := by decide +kernel

theorem test_witness_AccessPrimitives_fault :
    let s := withHole 0x8FF7 0x8FF7 (std [] [])
    DataFault s 0x8FF7 Width.w64.bytes (.accessFault 0x8FF7) ∧ DataFault s 0x8FF0 Width.w64.bytes (.accessFault 0x8FF7) ∧
      DataFault s 0x8FF9 Width.w64.bytes (.frameFault 0x9000) ∧ DataFault s 0x900F Width.w64.bytes (.frameFault 0x900F) ∧
      7 < Width.w64.bytes ∧ s.mapped (up 0x8FF0 7) = false ∧ ∀ k < 7, s.mapped (up 0x8FF0 k) = true := by
  decide +kernel

theorem test_witness_PushResult :
    let s := stdAt 0x1000 0x8008 [] []
    (Instr.push64 1).pushes = some (.w64, .unsigned, 1) ∧ StackOk s 0 Width.w64.bytes ∧
      DataOk s (resultAddr s 0 Width.w64.bytes) Width.w64.bytes := by decide +kernel

theorem test_witness_PushIntoWindowOrHoleFaults :
    let s := withSfp 0x87F0 (std [] [])
    let t := withHole 0x87FF 0x87FF (std [] [])
    (Instr.push8 1).pushes = some (.w8, .unsigned, 1) ∧ StackOk s 0 Width.w8.bytes ∧
      DataFault s (resultAddr s 0 Width.w8.bytes) Width.w8.bytes (.frameFault 0x87FF) ∧
      (Instr.push64 1).pushes = some (.w64, .unsigned, 1) ∧ StackOk t 0 Width.w64.bytes ∧
      DataFault t (resultAddr t 0 Width.w64.bytes) Width.w64.bytes (.accessFault 0x87FF) := by decide +kernel

theorem test_witness_PopResult :
    Instr.pop64.pops = some .w64 ∧ StackOk (stdAt 0x1000 0x8FF8 [] []) Width.w64.bytes 0 := by decide +kernel

theorem test_witness_PopLeavesUpperBytes :
    Instr.pop32.pops = some .w32 ∧ StackOk (std [] [(0x1122334455667788, 8)]) Width.w32.bytes 0 ∧
      Width.w32.bytes ≤ 8 ∧ Width.w32.bytes ≤ 4 := by decide +kernel

theorem test_witness_DupResult :
    let s := stdAt 0x1000 0x8008 [] [(0x0102030405060708, 8)]
    Instr.dup64.dups = some .w64 ∧ StackOk s Width.w64.bytes (2 * Width.w64.bytes) ∧ DataOk s s.sp Width.w64.bytes ∧
      DataOk s (resultAddr s 0 Width.w64.bytes) Width.w64.bytes := by decide +kernel

theorem test_witness_SetResult :
    let s := stdAt 0x1000 0x8FF0 [] [(1, 8), (2, 8)]
    Instr.set64.setsBelow = some .w64 ∧ StackOk s (2 * Width.w64.bytes) Width.w64.bytes ∧ DataOk s s.sp Width.w64.bytes ∧
      DataOk s (resultAddr s (2 * Width.w64.bytes) Width.w64.bytes) Width.w64.bytes := by decide +kernel

theorem test_witness_ConversionResult :
    let s := stdAt 0x1000 0x8007 [] [(0x80, 1)]
    let t := stdAt 0x1000 0x8FF8 [] [(0x8000000000000000, 8)]
    Instr.prom8u64.converts = some (.w8, .w64, .zeroExtend) ∧ Instr.prom8i64.converts = some (.w8, .w64, .signExtend) ∧
      UnaryOk s .w8 .w64 ∧ Instr.dem64to16.converts = some (.w64, .w16, .truncate) ∧ UnaryOk t .w64 .w16 :=
  ⟨rfl, rfl, ⟨by decide +kernel, by decide +kernel, by decide +kernel⟩, rfl,
    ⟨by decide +kernel, by decide +kernel, by decide +kernel⟩⟩

/-- A state whose stack holds exactly two bytes, a beneath b. -/
def two8 (a b : Nat) : State := stdAt 0x1000 0x8FFE [] [(a, 1), (b, 1)]

/-- The checks do not depend on the bytes. -/
theorem two8_ok (a b : Nat) : BinaryOk (two8 a b) .w8 .w8 .w8 :=
  ⟨⟨(by decide +kernel : StackOk (two8 0 0) 2 1), (by decide +kernel : DataOk (two8 0 0) 0x8FFE 1),
    (by decide +kernel : DataOk (two8 0 0) 0x8FFF 1)⟩, (by decide +kernel : DataOk (two8 0 0) (resultAddr (two8 0 0) 2 1) 1)⟩

theorem two8_wrap_ok (a b : Nat) : BinaryOk (withWrap (two8 a b)) .w8 .w8 .w8 :=
  ⟨⟨(by decide +kernel : StackOk (two8 0 0) 2 1), (by decide +kernel : DataOk (two8 0 0) 0x8FFE 1),
    (by decide +kernel : DataOk (two8 0 0) 0x8FFF 1)⟩, (by decide +kernel : DataOk (two8 0 0) (resultAddr (two8 0 0) 2 1) 1)⟩

theorem test_witness_AddSubResult :
    Instr.add8.adds = some (.w8, .plus) ∧ Instr.subr8.adds = some (.w8, .minusReversed) ∧
      BinaryOk (two8 0xFF 0x01) .w8 .w8 .w8 := ⟨rfl, rfl, two8_ok _ _⟩

theorem test_witness_MulResult :
    Instr.muli8.muls = some (.w8, .signed) ∧ BinaryOk (two8 0x80 0xFF) .w8 .w8 .w8 := ⟨rfl, two8_ok _ _⟩

theorem test_witness_MulSignednessImmaterial :
    Instr.mulu64.muls = some (.w64, .unsigned) ∧ Instr.muli64.muls = some (.w64, .signed) := ⟨rfl, rfl⟩

theorem test_witness_DivisionResult_signed :
    let s := two8 0x80 0x02
    Instr.modi8.divides = some (.w8, .signed, .remainder, .plain) ∧ BinaryOk s .w8 .w8 .w8 ∧
      (0x80 : Elem .w8) = DivOrder.plain.dividend (s.beneath .w8 .w8) (s.elem s.sp .w8) ∧
      (0x02 : Elem .w8) = DivOrder.plain.divisor (s.beneath .w8 .w8) (s.elem s.sp .w8) ∧ (0x02 : Elem .w8) ≠ 0 ∧
      ¬ ((0x80 : Elem .w8).toInt = -2 ^ (Width.w8.bits - 1) ∧ (0x02 : Elem .w8).toInt = -1) :=
  ⟨rfl, two8_ok _ _, by decide +kernel, by decide +kernel, by decide +kernel, by decide +kernel⟩

theorem test_witness_DivisionResult_unsigned :
    let s := two8 0xFF 0x80
    Instr.divru8.divides = some (.w8, .unsigned, .quotient, .reversed) ∧ BinaryOk s .w8 .w8 .w8 ∧
      (0x80 : Elem .w8) = DivOrder.reversed.dividend (s.beneath .w8 .w8) (s.elem s.sp .w8) ∧
      (0xFF : Elem .w8) = DivOrder.reversed.divisor (s.beneath .w8 .w8) (s.elem s.sp .w8) ∧ (0xFF : Elem .w8) ≠ 0 ∧
      Signedness.unsigned ≠ .signed :=
  ⟨rfl, two8_ok _ _, by decide +kernel, by decide +kernel, by decide +kernel, nofun⟩

theorem test_witness_DivideByZeroFaults :
    let s := two8 0x00 0x09
    Instr.modru8.divides = some (.w8, .unsigned, .remainder, .reversed) ∧ OperandsOk s .w8 .w8 .w8 ∧
      DivOrder.reversed.divisor (s.beneath .w8 .w8) (s.elem s.sp .w8) = 0 :=
  ⟨rfl, (two8_ok _ _).operands, by decide +kernel⟩

theorem test_witness_DivideOverflowFaultsOrWraps :
    let s := two8 0x80 0xFF
    Instr.divi8.divides = some (.w8, .signed, .quotient, .plain) ∧
      (DivOrder.plain.dividend (s.beneath .w8 .w8) (s.elem s.sp .w8)).toInt = -2 ^ (Width.w8.bits - 1) ∧
      (DivOrder.plain.divisor (s.beneath .w8 .w8) (s.elem s.sp .w8)).toInt = -1 ∧
      s.cfg.divOverflow = .fault ∧ OperandsOk s .w8 .w8 .w8 :=
  ⟨rfl, by decide +kernel, by decide +kernel, rfl, (two8_ok _ _).operands⟩

theorem test_witness_DivideOverflowFaultsOrWraps_wrap :
    let s := withWrap (two8 0xFF 0x80)
    Instr.modri8.divides = some (.w8, .signed, .remainder, .reversed) ∧
      (DivOrder.reversed.dividend (s.beneath .w8 .w8) (s.elem s.sp .w8)).toInt = -2 ^ (Width.w8.bits - 1) ∧
      (DivOrder.reversed.divisor (s.beneath .w8 .w8) (s.elem s.sp .w8)).toInt = -1 ∧
      s.cfg.divOverflow = .wrap ∧ BinaryOk s .w8 .w8 .w8 :=
  ⟨rfl, by decide +kernel, by decide +kernel, rfl, two8_wrap_ok _ _⟩

theorem test_witness_QuotientAndRemainderGiveDividend :
    let s := two8 0xF9 0xFE
    Instr.divi8.divides = some (.w8, .signed, .quotient, .plain) ∧
      Instr.modi8.divides = some (.w8, .signed, .remainder, .plain) ∧ s.status = .running ∧
      exec .divi8 s = .next (done .divi8 s) ∧ (done .divi8 s).status = .running ∧
      exec .modi8 s = .next (done .modi8 s) ∧ (done .modi8 s).status = .running :=
  ⟨rfl, rfl, rfl, exec_done _ _, by decide +kernel, exec_done _ _, by decide +kernel⟩

theorem test_witness_ShiftInRangeResult :
    let s := two8 0x81 0x07
    let t := two8 0x81 0x00
    Instr.rshifti8.shifts = some (.w8, .rshifti) ∧ BinaryOk s .w8 .w8 .w8 ∧ (s.elem s.sp .w8).toNat < Width.w8.bits ∧
      BinaryOk t .w8 .w8 .w8 ∧ (t.elem t.sp .w8).toNat < Width.w8.bits :=
  ⟨rfl, two8_ok _ _, by decide +kernel, two8_ok _ _, by decide +kernel⟩

theorem test_witness_ShiftOverResult :
    let s := two8 0x81 0x08
    let t := two8 0x81 0xFF
    Instr.lshift8.shifts = some (.w8, .lshift) ∧ BinaryOk s .w8 .w8 .w8 ∧ Width.w8.bits ≤ (s.elem s.sp .w8).toNat ∧
      BinaryOk t .w8 .w8 .w8 ∧ Width.w8.bits ≤ (t.elem t.sp .w8).toNat :=
  ⟨rfl, two8_ok _ _, by decide +kernel, two8_ok _ _, by decide +kernel⟩

theorem test_witness_BitwiseResult :
    Instr.bxor8.bitwise = some (.w8, .bxor) ∧ BinaryOk (two8 0xF0 0x3C) .w8 .w8 .w8 ∧ Instr.binv8.inverts = some .w8 ∧
      UnaryOk (two8 0xF0 0x3C) .w8 .w8 :=
  ⟨rfl, two8_ok _ _, rfl, ⟨by decide +kernel, by decide +kernel, by decide +kernel⟩⟩

theorem test_witness_BooleanResult :
    let s := two8 0x02 0x00
    boolWidth s .w8 = .w8 ∧ Instr.lor8.connects = some (.w8, .anyTrue) ∧ BinaryOk s .w8 .w8 (boolWidth s .w8) ∧
      Relation.anyTrue.Holds (s.beneath .w8 .w8).toNat (s.elem s.sp .w8).toNat ∧
      Instr.land8.connects = some (.w8, .bothTrue) ∧
      ¬ Relation.bothTrue.Holds (s.beneath .w8 .w8).toNat (s.elem s.sp .w8).toNat ∧
      Instr.linv8.negates = some .w8 ∧ UnaryOk s .w8 (boolWidth s .w8) ∧ s.elem s.sp .w8 = 0 :=
  ⟨rfl, rfl, two8_ok _ _, .inl (by decide +kernel), rfl, fun h => h.2 (by decide +kernel), rfl,
    ⟨by decide +kernel, by decide +kernel, by decide +kernel⟩, by decide +kernel⟩

theorem test_witness_BooleanResult_byte :
    let s := withByteResults (stdAt 0x1000 0x8FFC [] [(0x00010000, 4)])
    s.elem s.sp .w32 ≠ 0 ∧ Instr.linv32.negates = some .w32 ∧ boolWidth s .w32 = .w8 ∧ UnaryOk s .w32 (boolWidth s .w32) :=
  ⟨by decide +kernel, rfl, rfl, ⟨by decide +kernel, by decide +kernel, by decide +kernel⟩⟩

theorem test_witness_ComparisonResult :
    let s := two8 0xFF 0x01
    Instr.cgtu8.compares = some (.w8, .gt, .unsigned) ∧ BinaryOk s .w8 .w8 (boolWidth s .w8) ∧
      Relation.gt.Holds (intVal .unsigned (s.beneath .w8 .w8)) (intVal .unsigned (s.elem s.sp .w8)) ∧
      Instr.cgti8.compares = some (.w8, .gt, .signed) ∧
      ¬ Relation.gt.Holds (intVal .signed (s.beneath .w8 .w8)) (intVal .signed (s.elem s.sp .w8)) :=
  ⟨rfl, two8_ok _ _, (by decide +kernel : intVal .unsigned ((two8 0xFF 1).beneath .w8 .w8) >
      intVal .unsigned ((two8 0xFF 1).elem 0x8FFE .w8)), rfl,
    (by decide +kernel : ¬ intVal .signed ((two8 0xFF 1).beneath .w8 .w8) >
      intVal .signed ((two8 0xFF 1).elem 0x8FFE .w8))⟩

theorem test_witness_BooleanWidthParameter :
    (std [] []).cfg.boolw = .operand ∧ (withByteResults (std [] [])).cfg.boolw = .byte := ⟨rfl, rfl⟩

theorem test_witness_CallResult :
    let s := stdAt 0x1000 0x8010 [] []
    StackOk s 0 16 ∧ DataOk s (down s.sp 8) 8 ∧ DataOk s (down s.sp 16) 8 := by decide +kernel

theorem test_witness_CallsResult :
    let s := stdAt 0x1000 0x8008 [] [(0x2000, 8)]
    StackOk s 8 16 ∧ DataOk s s.sp 8 ∧ DataOk s (down s.sp 8) 8 := by decide +kernel

theorem test_witness_RetResultAndFaults_ok :
    RetOk (withSfp 0x8FF0 (std [] [])) ∧ RetOk (withSfp 0x7FF0 (std [] [])) :=
  ⟨⟨by decide +kernel, by decide +kernel, by decide +kernel, by decide +kernel⟩,
    ⟨by decide +kernel, by decide +kernel, by decide +kernel, by decide +kernel⟩⟩

theorem test_witness_RetResultAndFaults_access :
    let s := withHole 0x880F 0x880F (withSfp 0x8800 (std [] []))
    15 < 16 ∧ s.mapped (up s.sfp 15) = false ∧ ∀ k < 15, s.mapped (up s.sfp k) = true := by decide +kernel

theorem test_witness_RetResultAndFaults_stack :
    let s := withSfp 0x8FF1 (std [] [])
    let t := withSfp 0x7FEF (std [] [])
    MappedOk s s.sfp 16 ∧ s.sbp.toNat < s.sfp.toNat + 16 ∧ MappedOk t t.sfp 16 ∧ t.sfp.toNat + 16 ≤ t.sbp.toNat ∧
      t.sfp.toNat + 16 < t.slp.toNat := by decide +kernel

/-- The callee has moved SP and PC, and still has its frame. -/
theorem test_witness_CallThenReturn :
    let s := std [] []
    let t := done (.call 0x2000) s
    let u := { t with sp := 0x8700, pc := 0x2100 }
    s.status = .running ∧ exec (.call 0x2000) s = .next t ∧ t.status = .running ∧ u.sfp = t.sfp ∧ u.sbp = t.sbp ∧
      u.slp = t.slp ∧ u.cfg = t.cfg ∧ u.elem t.sfp .w64 = t.elem t.sfp .w64 ∧
      u.elem (up t.sfp 8) .w64 = t.elem (up t.sfp 8) .w64 :=
  ⟨rfl, exec_done _ _, by decide +kernel, rfl, rfl, rfl, rfl, rfl, rfl⟩

theorem test_witness_JumpResult : (Instr.rjmpi16 0x8000).jumps 0x1000 = some 0xFFFFFFFFFFFF9000 := by decide +kernel

theorem test_witness_JmpsResult :
    let s := stdAt 0x1000 0x8FF8 [] [(0x2468, 8)]
    StackOk s 8 0 ∧ DataOk s s.sp 8 := by decide +kernel

theorem test_witness_BranchResult :
    let s := stdAt 0x1000 0x8FFE [] [(0x0000, 2)]
    let t := stdAt 0x1000 0x8FFE [] [(0x8000, 2)]
    (Instr.rbrz16i8 0xF0).branches 0x1000 = some (.w16, 0xFF0) ∧ StackOk s Width.w16.bytes 0 ∧
      DataOk s s.sp Width.w16.bytes ∧ (s.elem s.sp .w16).toNat = 0 ∧ StackOk t Width.w16.bytes 0 ∧
      DataOk t t.sp Width.w16.bytes ∧ (t.elem t.sp .w16).toNat ≠ 0 := by decide +kernel

theorem test_witness_LoadResult_keep :
    let s := stdAt 0x1000 0x8008 [] [(0xFFFFFFFFFFFFFFF8, 8)]
    Instr.loadsfp64.loads = some (.w64, .sfp, .keep) ∧
      LoadOk s .w64 .sfp LoadForm.keep.taken (8 - LoadForm.keep.taken + Width.w64.bytes) :=
  ⟨rfl, by decide +kernel, by decide +kernel, by decide +kernel, by decide +kernel⟩

theorem test_witness_LoadResult_pop :
    let s := stdAt 0x1000 0x8FF8 [] [(0xFFFFFFFFFFFFFFFF, 8)]
    Instr.loadpop16.loads = some (.w16, .absolute, .pop) ∧
      LoadOk s .w16 .absolute LoadForm.pop.taken (8 - LoadForm.pop.taken + Width.w16.bytes) :=
  ⟨rfl, by decide +kernel, by decide +kernel, by decide +kernel, by decide +kernel⟩

theorem test_witness_StoreResult :
    let s := stdAt 0x1000 0x8FF7 [] [(0x9010, 8), (0x5A, 1)]
    Instr.storepop8.stores = some (.w8, .absolute, 1) ∧ StoreOk s .w8 .w64 1 (storeTopAddr s .w8 .absolute) .w8 :=
  ⟨rfl, by decide +kernel, by decide +kernel, by decide +kernel, by decide +kernel⟩

theorem test_witness_StoreReversedResult :
    let s := stdAt 0x1000 0x8FF0 [] [(0x1122334455667788, 8), (0xFFFFFFFFFFFFFFF8, 8)]
    Instr.storerpopsfp64.storesReversed = some (.w64, .sfp, 8) ∧ StoreOk s .w64 .w64 8 (storeBeneathAddr s .sfp) .w64 :=
  ⟨rfl, by decide +kernel, by decide +kernel, by decide +kernel, by decide +kernel⟩

theorem test_witness_LoadStoreFaults_load :
    let s := std [] [(0xFFFFFFFFFFFFFFF9, 8)]
    Instr.loadsfp64.loads = some (.w64, .sfp, .keep) ∧ StackOk s 8 (8 - LoadForm.keep.taken + Width.w64.bytes) ∧
      DataOk s s.sp 8 ∧ DataFault s (effAddr s .sfp (s.elem s.sp .w64)) Width.w64.bytes (.frameFault 0x9000) := by
  decide +kernel

theorem test_witness_LoadStoreFaults_store :
    let s := withHole 0x5000 0x5FFF (std [] [(0x4FFD, 8), (0x01020304, 4)])
    Instr.storepop32.stores = some (.w32, .absolute, 4) ∧ StackOk s (8 + Width.w32.bytes) (8 + Width.w32.bytes - 4) ∧
      DataOk s s.sp Width.w32.bytes ∧ DataOk s (up s.sp Width.w32.bytes) 8 ∧
      DataFault s (storeTopAddr s .w32 .absolute) Width.w32.bytes (.accessFault 0x5000) := by decide +kernel

theorem test_witness_LoadStoreFaults_reversed :
    let s := std [] [(0x0BAD, 8), (0x000F, 8)]
    Instr.storersfp64.storesReversed = some (.w64, .sfp, 0) ∧ StackOk s (8 + Width.w64.bytes) (8 + Width.w64.bytes - 0) ∧
      DataOk s s.sp 8 ∧ DataOk s (up s.sp 8) Width.w64.bytes ∧
      DataFault s (storeBeneathAddr s .sfp) Width.w64.bytes (.frameFault 0x900F) := by decide +kernel

/-- The store's bytes end where the address on the stack begins. -/
theorem test_witness_StoreThenLoadReadsValue :
    let s := std [] [(0xAB, 1), (0x87FF, 8)]
    let t := done .storer8 s
    Instr.storer8.storesReversed = some (.w8, .absolute, 0) ∧ Instr.load8.loads = some (.w8, .absolute, .keep) ∧
      s.status = .running ∧ exec .storer8 s = .next t ∧ t.status = .running ∧
      (∀ x, Within (storeBeneathAddr s .absolute) Width.w8.bytes x → ¬ Within s.sp 8 x) ∧
      LoadOk t .w8 .absolute 0 (8 + Width.w8.bytes) := by
  refine ⟨rfl, rfl, rfl, exec_done _ _, by decide +kernel, fun x h => ?_,
    by decide +kernel, by decide +kernel, by decide +kernel, by decide +kernel⟩
  obtain ⟨j, hj, rfl⟩ := Within.eq_up h
  obtain rfl : j = 0 := by simpa using hj
  decide +kernel

theorem test_witness_StoreThenLoadReadsValue_own :
    let s := std [] [(0x8800, 8), (0x5A, 1)]
    Instr.store8.stores = some (.w8, .absolute, 0) ∧ storeTopAddr s .w8 .absolute = s.sp ∧
      exec .store8 s = .next (done .store8 s) ∧ (done .store8 s).status = .running :=
  ⟨rfl, by decide +kernel, exec_done _ _, by decide +kernel⟩

theorem test_witness_BootSequenceInAnyOrder :
    [Instr.setsfp 0x9000, .setsp 0x9000, .setslp 0x8000, .setsbp 0x9000].Perm
      [.setsbp 0x9000, .setslp 0x8000, .setsp 0x9000, .setsfp 0x9000] := by decide +kernel

end Sys2Proof.Tests
end

section
/-! PROOFS. The statements of 10_state.md: who writes each register, equality of memories, terminal statuses, and launch. -/

namespace Sys2Proof.Machine

/-! ## Who writes each register (10_state.md R25 to R27, R30)

Each lemma splits on the kinds of next state that `Effect` lists: the named cases are the writers of the register, and
every other kind leaves it alone. -/

/-- An instruction that moved SP through its StackCheck has a stack operand or result. -/
theorem StackMoves.stackUse_ne_none {s : State} {i : Instr} {sp : Addr} (h : StackMoves s i sp) : i.stackUse s ≠ none := by
  obtain ⟨nIn, nOut, hu, -, -⟩ := h
  simp [hu]

theorem Effect.cfg_eq {s t : State} {i : Instr} (e : Effect s i t) : t.cfg = s.cfg := by
  cases e <;> rfl

theorem Effect.sbp_eq {s t : State} {i : Instr} (e : Effect s i t) (hset : ∀ v, i ≠ .setsbp v) : t.sbp = s.sbp := by
  cases e with
  | setSbp v hi => exact absurd hi (hset v)
  | _ => rfl

theorem Effect.slp_eq {s t : State} {i : Instr} (e : Effect s i t) (hset : ∀ v, i ≠ .setslp v) : t.slp = s.slp := by
  cases e with
  | setSlp v hi => exact absurd hi (hset v)
  | _ => rfl

theorem Effect.sfp_eq {s t : State} {i : Instr} (e : Effect s i t) (hset : ∀ v, i ≠ .setsfp v)
    (hcall : ∀ v, i ≠ .call v) (hcalls : i ≠ .calls) (hret : i ≠ .ret) : t.sfp = s.sfp := by
  cases e with
  | setSfp v hi => exact absurd hi (hset v)
  | framed hi lo pc reta h hc =>
    rcases hc with hc | ⟨v, hc⟩
    · exact absurd hc hcalls
    · exact absurd hc (hcall v)
  | returned psfp reta hi => exact absurd hi hret
  | _ => rfl

theorem Effect.sp_eq {s t : State} {i : Instr} (e : Effect s i t) (huse : i.stackUse s = none)
    (hret : i ≠ .ret) (hset : ∀ v, i ≠ .setsp v) : t.sp = s.sp := by
  cases e with
  | moved sp pc h => exact absurd huse h.stackUse_ne_none
  | stored a w v sp pc h => exact absurd huse h.stackUse_ne_none
  | framed hi lo pc reta h => exact absurd huse h.stackUse_ne_none
  | returned psfp reta hi => exact absurd hi hret
  | setSp v hi => exact absurd hi (hset v)
  | _ => rfl

/-- Settles O15: every next state is one of the kinds of `Effect`, and each register has its own lemma over them. -/
theorem registersChangeOnlyByTheirWriters : Obligations.RegistersChangeOnlyByTheirWriters := by
  intro i s t h
  have e : Effect s i t := exec_effect h
  exact ⟨e.cfg_eq, e.sbp_eq, e.slp_eq, e.sfp_eq, e.sp_eq⟩

/-! ## Memory as a map (10_state.md R32) -/

/-- An address that no entry lists reads as an unlisted byte. -/
theorem Memory.get_of_forall_ne {m : Memory} {x : Nat} (h : ∀ c ∈ m, x ≠ c.1) : m.get x = Config.unlistedByte := by
  induction m with
  | nil => rfl
  | cons c m ih =>
    obtain ⟨hc, hm⟩ := List.forall_mem_cons.mp h
    exact (if_neg hc).trans (ih hm)

/-- A canonical memory lists no address past the 64-bit ones. -/
theorem Memory.get_of_wf_of_le {m : Memory} (h : m.wf = true) {x : Nat} (hx : 2 ^ 64 ≤ x) :
    m.get x = Config.unlistedByte := by
  obtain ⟨-, hcells⟩ := (Memory.wf_iff m).mp h
  exact Memory.get_of_forall_ne fun c hc => ((hcells c hc).1.trans_le hx).ne'

/-- Settles O24: the two memories agree at the 64-bit addresses by hypothesis and at all others because neither lists
any, so `Memory.ext_of_wf` applies. -/
theorem canonicalMemoriesAreEqual : Obligations.CanonicalMemoriesAreEqual := by
  intro m m' h h' hget
  refine Memory.ext_of_wf h h' fun x => ?_
  by_cases hx : x < 2 ^ 64
  · simpa only [BitVec.toNat_ofNatLT] using hget (BitVec.ofNatLT x hx)
  · have hx : 2 ^ 64 ≤ x := Nat.le_of_not_lt hx
    rw [Memory.get_of_wf_of_le h hx, Memory.get_of_wf_of_le h' hx]

/-! ## Terminal statuses (10_state.md R31, 30_encoding.md R94, 60_exceptions.md R484) -/

theorem step_of_halted {s : State} (h : s.status = .halted) : step s = .fault .halted := by
  simp only [step, h]

theorem step_of_faulted {s : State} {c : FaultCause} (h : s.status = .faulted c) : step s = .fault (.faulted c) := by
  simp only [step, h]

/-- Settles O8: `step` reads the status before anything else. -/
theorem terminalStatusTakesNoStep : Obligations.TerminalStatusTakesNoStep :=
  ⟨fun _ => step_of_halted, fun _ _ => step_of_faulted⟩

/-! ## Launch and reset (10_state.md R35, 70_reset_and_hazards.md R520) -/

/-- The invariant speaks of the image and the configuration alone, whatever the registers are launched with. -/
theorem State.launch_inv {cfg : Platform} {image : Memory} (hcfg : cfg.wf = true) (himage : image.wf = true)
    (pc sbp sfp sp slp : Addr) : Inv (State.launch cfg image pc sbp sfp sp slp) := ⟨himage, hcfg⟩

theorem defaultPlatform_wf : Config.defaultPlatform.wf = true := Laws.opcWf_default

theorem State.reset_inv : Inv State.reset := State.launch_inv defaultPlatform_wf Memory.wf_nil _ _ _ _ _

/-- Settles O14: reset is one of the launches. -/
theorem launchHasInv : Obligations.LaunchHasInv :=
  ⟨fun _ _ pc sbp sfp sp slp hcfg himage => ⟨State.launch_inv hcfg himage pc sbp sfp sp slp, rfl⟩,
    State.reset_inv, rfl⟩

end Sys2Proof.Machine
end

section
/-! PROOFS. The statements of 20_memory.md: what a step can write, what it can depend on, the StackCheck, and little-endian
accesses. -/

namespace Sys2Proof.Machine

/-! ## Little-endian accesses (20_memory.md R52) -/

/-- Reading the bytes from the k-th on is dropping the k least significant bytes. -/
theorem Memory.loadLE_div (m : Memory) (a : Addr) (k n : Nat) :
    m.loadLE a (k + n) / 256 ^ k = m.loadLE (up a k) n := by
  induction k generalizing a with
  | zero => simp
  | succ k ih =>
    have hb := (m.get a.toNat).isLt
    have hstep : m.loadLE a (k + 1 + n) / 256 = m.loadLE (a + 1) (k + n) := by
      rw [Nat.add_right_comm, Memory.loadLE]
      omega
    rw [Nat.pow_succ', ← Nat.div_div_eq_div_mul, hstep, ih, up_succ]

/-- Byte i of a number read from memory is the byte at the i-th address. -/
theorem Memory.loadLE_byte (m : Memory) (a : Addr) {n i : Nat} (hi : i < n) :
    m.loadLE a n / 256 ^ i % 256 = (m.get (up a i).toNat).toNat := by
  obtain ⟨k, rfl⟩ := Nat.exists_eq_add_of_lt hi
  have hb := (m.get (up a i).toNat).isLt
  rw [Nat.add_assoc, Memory.loadLE_div, Memory.loadLE]
  omega

/-- After a store, the i-th address holds byte i of the number stored. -/
theorem Memory.get_storeLE_up (m : Memory) (a : Addr) {n i : Nat} (v : Nat) (hn : n ≤ 2 ^ 64) (hi : i < n) :
    (m.storeLE a n v).get (up a i).toNat = BitVec.ofNat 8 (v / 256 ^ i) := by
  rw [Memory.get_storeLE m a n v hn, up_sub a (by omega), if_pos hi]

/-- A narrower access inside a stored number sees exactly the bytes of its place. -/
theorem Memory.loadLE_up_storeLE (m : Memory) (a : Addr) {n j k : Nat} (v : Nat) (hn : n ≤ 2 ^ 64) (hjk : j + k ≤ n) :
    (m.storeLE a n v).loadLE (up a j) k = v / 256 ^ j % 256 ^ k :=
  Memory.loadLE_eq_of_bytes fun l hl => by
    rw [up_up, Memory.get_storeLE_up m a v hn (by omega), Nat.div_div_eq_div_mul, pow_add]

theorem accessSize_le {n : Nat} (hn : n ∈ [1, 2, 4, 8]) : n ≤ 2 ^ 64 := by
  simp only [List.mem_cons, List.not_mem_nil, or_false] at hn
  omega

/-- Settles O22: the bytes of a number read, the bytes of a number stored, and a narrower access to it. -/
theorem littleEndianBytes : Obligations.LittleEndianBytes := by
  refine ⟨fun m a n i _ hi => ⟨m.loadLE_byte a hi, m.loadLE_lt a n⟩, fun m a n v i hn hi => ?_,
    fun m a n v j k hn hjk => m.loadLE_up_storeLE a v (accessSize_le hn) hjk⟩
  rw [m.get_storeLE_up a v (accessSize_le hn) hi, BitVec.toNat_ofNat]

/-- Settles O23: the law of reading a byte that was not stored, and that every byte stored keeps the canonical form. -/
theorem storeLeavesOtherBytes : Obligations.StoreLeavesOtherBytes := fun m a n v hn =>
  ⟨fun _ hx => m.get_storeLE_of_not_within a n v hn hx, fun h => Memory.wf_storeLE h a n v⟩

/-- Settles O29: a pop moves SP by its bytes and leaves memory, so the wider element is read from its k-th byte on. -/
theorem popLeavesUpperBytes : Obligations.PopLeavesUpperBytes := by
  intro i s w n hi hs hn
  refine ⟨_, (exec_of_pops hi s).trans (popElem_ok hs), ?_⟩
  obtain ⟨k, rfl⟩ := Nat.exists_eq_add_of_le hn
  rw [State.put_mem, State.put_sp, Nat.add_sub_cancel_left, Memory.loadLE_div]

/-! ## The access primitives (20_memory.md R56 to R60) -/

theorem mapCheck_error {s : State} {a : Addr} {n j : Nat} (hj : j < n) (hp : s.mapped (up a j) = false)
    (hk : ∀ k < j, s.mapped (up a k) = true) : mapCheck s a n = .error (.accessFault (up a j)) := by
  have hfirst : firstIn (fun x => !s.mapped x) a n = some (up a j) :=
    firstIn_of_first hj (by simp [hp]) fun k hk' => by simp [hk k hk']
  rw [mapCheck, hfirst]

/-- Settles O25: one law per primitive and outcome. -/
theorem accessPrimitives : Obligations.AccessPrimitives := by
  intro s m a w v
  refine ⟨fun h => ⟨memRead_ok h, memWrite_ok h⟩, fun c h => ⟨memRead_error h, memWrite_error h⟩,
    fun h => ⟨rawRead_ok h, fetch_ok h⟩, fun j hj hp hk => ?_⟩
  have hc := mapCheck_error hj hp hk
  exact ⟨by rw [rawRead, hc, except_bind_error], by rw [fetch, hc, except_bind_error]⟩

/-! ## The StackCheck (20_memory.md R61) -/

/-- Settles O19: the StackCheck stands before the rest of the meaning, so its fault is the answer whatever follows. -/
theorem stackCheckFaults : Obligations.StackCheckFaults := by
  intro i s nIn nOut hi
  obtain ⟨k, hk⟩ := exec_begins_with_stackCheck hi
  refine ⟨fun hu => ?_, fun hu ho => ?_⟩
  · rw [hk, stackCheck_underflow hu, except_bind_error, finish_error]
  · rw [hk, stackCheck_overflow hu ho, except_bind_error, finish_error]

/-- The new SP that a passed StackCheck gives. -/
theorem StackMoves.sp_bounds {s : State} {i : Instr} {sp : Addr} {nIn nOut : Nat} (h : StackMoves s i sp)
    (hi : i.stackUse s = some (nIn, nOut)) :
    sp.toNat + nOut = s.sp.toNat + nIn ∧ s.slp.toNat ≤ sp.toNat ∧ sp.toNat ≤ s.sbp.toNat := by
  obtain ⟨nIn', nOut', hi', hs, rfl⟩ := h
  obtain ⟨rfl, rfl⟩ : nIn = nIn' ∧ nOut = nOut' := by simpa [hi] using hi'
  have hsp := resultAddr_toNat hs
  obtain ⟨hbottom, hlimit⟩ := hs
  omega

/-- Settles O20: of the kinds of next state, those of an instruction with a StackCheck that leave the machine running are
the ones that moved SP through it. -/
theorem stackStaysInBounds : Obligations.StackStaysInBounds := by
  intro i s t nIn nOut _ hi h hrun
  cases exec_effect h with
  | raised c => cases hrun
  | moved sp pc hm => exact hm.sp_bounds hi
  | stored a w v sp pc hm => exact hm.sp_bounds hi
  | framed _ lo pc reta hm => exact hm.sp_bounds hi
  | jumped pc hnone => cases hnone.symm.trans hi
  | returned _ _ he => subst he; cases hi
  | setSbp v he => subst he; cases hi
  | setSfp v he => subst he; cases hi
  | setSp v he => subst he; cases hi
  | setSlp v he => subst he; cases hi
  | halted he => cases hrun

/-- The numbers of n addresses that do not wrap around. -/
theorem Within.toNat_bounds {a x : Addr} {n : Nat} (h : Within a n x) (hn : a.toNat + n ≤ 2 ^ 64) :
    a.toNat ≤ x.toNat ∧ x.toNat < a.toNat + n := by
  rw [Within] at h
  bv_omega

/-- Settles O21: neither the operands nor the results wrap around, being bounded by SBP. -/
theorem stackBytesInBounds : Obligations.StackBytesInBounds := by
  intro s nIn nOut x hs hsp hx
  have hresult := resultAddr_toNat hs
  have hsbp := s.sbp.isLt
  obtain ⟨hbottom, hlimit⟩ := hs
  rcases hx with hx | hx
  · have hb := hx.toNat_bounds (by omega)
    omega
  · have hb := hx.toNat_bounds (by omega)
    omega

/-! ## What a step can write (20_memory.md R55, R58, R60) -/

/-- No data access that passes its checks touches the byte. -/
def Untouchable (s : State) (x : Addr) : Prop := ∀ (a : Addr) (n : Nat), DataOk s a n → ¬ Within a n x

theorem untouchable_of_inWindow {s : State} {x : Addr} (hx : s.inWindow x = true) : Untouchable s x :=
  fun _ _ h hw => by simp [h.not_inWindow hw] at hx

theorem untouchable_of_not_mapped {s : State} {x : Addr} (hx : s.mapped x = false) : Untouchable s x := by
  intro a n h hw
  obtain ⟨j, hj, rfl⟩ := hw.eq_up
  simp [h.mapped j hj] at hx

/-- An instruction writes memory only by stores that passed the checks of a data access. -/
theorem Effect.get_mem {s t : State} {i : Instr} {x : Addr} (e : Effect s i t) (hx : Untouchable s x) :
    t.mem.get x.toNat = s.mem.get x.toNat := by
  cases e with
  | stored a w v sp pc _ ha => exact stored_mem s a w v sp pc x (hx a _ ha)
  | framed hi lo pc reta _ _ hh hl =>
    exact (Memory.get_storeLE_of_not_within _ lo 8 _ (by decide) (hx lo 8 hl)).trans
      (Memory.get_storeLE_of_not_within _ hi 8 _ (by decide) (hx hi 8 hh))
  | _ => rfl

/-- A step leaves every byte that no data access can touch. -/
theorem step_get_mem {s t : State} (h : step s = .next t) {x : Addr} (hx : Untouchable s x) :
    t.mem.get x.toNat = s.mem.get x.toNat := by
  obtain ⟨-, ⟨c, -, rfl⟩ | ⟨i, -, -, e⟩⟩ := step_next h
  · rfl
  · exact e.get_mem hx

/-- Settles O16: a data access to the window does not pass. -/
theorem windowNeverWritten : Obligations.WindowNeverWritten := fun s _ h x hx =>
  step_get_mem h (untouchable_of_inWindow ((inWindow_iff s x).mpr hx))

/-- Settles O18: a data access to an unmapped byte does not pass. -/
theorem unmappedNeverWritten : Obligations.UnmappedNeverWritten := fun _ _ h _ hx =>
  step_get_mem h (untouchable_of_not_mapped hx)

/-! ## What every step keeps (20_memory.md R50, 10_state.md R32) -/

theorem Effect.mem_wf {s t : State} {i : Instr} (e : Effect s i t) (h : s.mem.wf = true) : t.mem.wf = true := by
  cases e with
  | stored a w v => exact Memory.wf_storeLE h a w.bytes v.toNat
  | framed hi lo pc reta => exact Memory.wf_storeLE (Memory.wf_storeLE h hi 8 _) lo 8 _
  | _ => exact h

/-- Settles O13: a fault of the fetch changes the status alone, and every kind of effect keeps both parts. -/
theorem stepKeepsInv : Obligations.StepKeepsInv := by
  rintro s t ⟨hmem, hcfg⟩ h
  obtain ⟨-, ⟨c, -, rfl⟩ | ⟨i, -, -, e⟩⟩ := step_next h
  · exact ⟨hmem, hcfg⟩
  · exact ⟨e.mem_wf hmem, e.cfg_eq ▸ hcfg⟩

/-! ## What an instruction can depend on (20_memory.md R59, R60)

The two states of O17 are s and `s.withMem m`, where m agrees with the memory of s outside the window of s. Every check
reads registers and configuration alone, so it answers the same for both; a data access that passes lies outside the
window, so it reads the same element, and a write keeps the agreement. Each shape of instruction is a chain of these. -/

/-- The state with another memory. -/
def State.withMem (s : State) (m : Memory) : State := s.put m s.sp s.pc

/-- The memories agree at every address of which p does not hold. -/
def AgreeOutside (p : Addr → Bool) (m m' : Memory) : Prop := ∀ x : Addr, p x = false → m'.get x.toNat = m.get x.toNat

/-- Two checked computations raise the same cause, or answer values that R relates. -/
inductive SameAnswer {α : Type} (R : α → α → Prop) : Except FaultCause α → Except FaultCause α → Prop
  | ok {a b : α} (h : R a b) : SameAnswer R (.ok a) (.ok b)
  | error (c : FaultCause) : SameAnswer R (.error c) (.error c)

theorem SameAnswer.bind {α β : Type} {R : α → α → Prop} {S : β → β → Prop} {e e' : Except FaultCause α}
    {f g : α → Except FaultCause β} (h : SameAnswer R e e') (hfg : ∀ a b, R a b → SameAnswer S (f a) (g b)) :
    SameAnswer S (e >>= f) (e' >>= g) := by
  cases h with
  | ok h => exact hfg _ _ h
  | error c => exact .error c

/-- A first computation that both share. -/
theorem SameAnswer.bind_eq {α β : Type} {S : β → β → Prop} {e e' : Except FaultCause α} {f g : α → Except FaultCause β}
    (h : e' = e) (hfg : ∀ a, SameAnswer S (f a) (g a)) : SameAnswer S (e >>= f) (e' >>= g) := by
  subst h
  cases e' with
  | ok a => exact hfg a
  | error c => exact .error c

theorem SameOutside.withMem {p : Addr → Bool} {s : State} {m : Memory} (h : AgreeOutside p s.mem m) :
    SameOutside p s (s.withMem m) := ⟨rfl, rfl, rfl, rfl, rfl, rfl, rfl, h⟩

/-- States that differ at most at some bytes differ in memory alone. -/
theorem SameOutside.eq_withMem {p : Addr → Bool} {s s' : State} (h : SameOutside p s s') : s' = s.withMem s'.mem := by
  obtain ⟨hpc, hsbp, hsfp, hsp, hslp, hstatus, hcfg, -⟩ := h
  cases s'
  cases hpc; cases hsbp; cases hsfp; cases hsp; cases hslp; cases hstatus; cases hcfg
  rfl

/-- Both answers are next states, which differ at most at the addresses of p. -/
def SameNext (p : Addr → Bool) (r r' : Result) : Prop := ∃ t t', r = .next t ∧ r' = .next t' ∧ SameOutside p t t'

theorem SameNext.next {p : Addr → Bool} {t t' : State} (h : SameOutside p t t') : SameNext p (.next t) (.next t') :=
  ⟨t, t', rfl, rfl, h⟩

/-- A store of the same element keeps the agreement. -/
theorem AgreeOutside.storeLE {p : Addr → Bool} {m₁ m₂ : Memory} (h : AgreeOutside p m₁ m₂) (a : Addr) {n : Nat}
    (hn : n ≤ 2 ^ 64) (v : Nat) : AgreeOutside p (m₁.storeLE a n v) (m₂.storeLE a n v) := by
  intro x hx
  rw [Memory.get_storeLE m₁ a n v hn, Memory.get_storeLE m₂ a n v hn, h x hx]

theorem memWrite_withMem {p : Addr → Bool} {s : State} {m m₁ m₂ : Memory} (h : AgreeOutside p m₁ m₂) (a : Addr)
    (w : Width) (v : Elem w) :
    SameAnswer (AgreeOutside p) (memWrite s m₁ a w v) (memWrite (s.withMem m) m₂ a w v) := by
  rcases memWrite_cases s m₁ a w v with ⟨hr, ha⟩ | ⟨c, hr, hc⟩
  · rw [hr, memWrite_ok (s := s.withMem m) ha]
    exact .ok (h.storeLE a w.bytes_le _)
  · rw [hr, memWrite_error (s := s.withMem m) hc]
    exact .error c

theorem put_withMem {s : State} {m m₁ m₂ : Memory} (h : AgreeOutside s.inWindow m₁ m₂) (sp pc : Addr) :
    SameAnswer (SameOutside s.inWindow) (.ok (s.put m₁ sp pc)) (.ok ((s.withMem m).put m₂ sp pc)) :=
  .ok ⟨rfl, rfl, rfl, rfl, rfl, rfl, rfl, h⟩

theorem enterFrame_withMem {s : State} {m m₁ m₂ : Memory} (h : AgreeOutside s.inWindow m₁ m₂) (sp pc : Addr) :
    SameAnswer (SameOutside s.inWindow) (.ok (s.enterFrame m₁ sp pc)) (.ok ((s.withMem m).enterFrame m₂ sp pc)) :=
  .ok ⟨rfl, rfl, rfl, rfl, rfl, rfl, rfl, h⟩

section
variable {s : State} {m : Memory} (h : AgreeOutside s.inWindow s.mem m)
include h

theorem DataOk.elem_withMem {a : Addr} {w : Width} (ha : DataOk s a w.bytes) :
    (s.withMem m).elem a w = s.elem a w :=
  State.elem_congr fun j hj => h _ (ha j hj).1

theorem memRead_withMem (a : Addr) (w : Width) : memRead (s.withMem m) a w = memRead s a w := by
  rcases memRead_cases s a w with ⟨hr, ha⟩ | ⟨c, hr, hc⟩
  · rw [hr, memRead_ok (s := s.withMem m) ha, ha.elem_withMem h]
  · rw [hr, memRead_error (s := s.withMem m) hc]

theorem finish_withMem {e e' : Except FaultCause State} (he : SameAnswer (SameOutside s.inWindow) e e') :
    SameNext s.inWindow (finish s e) (finish (s.withMem m) e') := by
  cases he with
  | ok ht => exact .next ht
  | error c => exact .next ⟨rfl, rfl, rfl, rfl, rfl, rfl, rfl, h⟩

theorem putElem_withMem (nIn : Nat) (w : Width) (v : Elem w) (len : Nat) :
    SameAnswer (SameOutside s.inWindow) (putElem s nIn w v len) (putElem (s.withMem m) nIn w v len) :=
  .bind (memWrite_withMem h _ w v) fun _ _ hm => put_withMem hm _ _

/-! ### The shapes of instructions -/

theorem pushElem_withMem (w : Width) (v : Elem w) (len : Nat) :
    SameNext s.inWindow (pushElem w v len s) (pushElem w v len (s.withMem m)) :=
  finish_withMem h <| .bind_eq rfl fun _ => putElem_withMem h 0 w v len

theorem popElem_withMem (w : Width) : SameNext s.inWindow (popElem w s) (popElem w (s.withMem m)) :=
  finish_withMem h <| .bind_eq rfl fun _ => put_withMem h _ _

theorem dupElem_withMem (w : Width) : SameNext s.inWindow (dupElem w s) (dupElem w (s.withMem m)) :=
  finish_withMem h <| .bind_eq rfl fun _ => .bind_eq (memRead_withMem h _ w) fun a => putElem_withMem h 0 w a 1

theorem setElem_withMem (w : Width) : SameNext s.inWindow (setElem w s) (setElem w (s.withMem m)) :=
  finish_withMem h <| .bind_eq rfl fun _ => .bind_eq (memRead_withMem h _ w) fun b => putElem_withMem h _ w b 1

theorem unary_withMem {wa wr : Width} (f : Elem wa → Elem wr) :
    SameNext s.inWindow (unary wa wr f s) (unary wa wr f (s.withMem m)) :=
  finish_withMem h <| .bind_eq rfl fun _ => .bind_eq (memRead_withMem h _ wa) fun a => putElem_withMem h _ wr (f a) 1

theorem binary_withMem {wa wb wr : Width} (f : Elem wa → Elem wb → Except FaultCause (Elem wr)) :
    SameNext s.inWindow (binary wa wb wr f s) (binary wa wb wr f (s.withMem m)) :=
  finish_withMem h <| .bind_eq rfl fun _ => .bind_eq (memRead_withMem h _ wb) fun _ =>
    .bind_eq (memRead_withMem h _ wa) fun _ => .bind_eq rfl fun r => putElem_withMem h _ wr r 1

theorem loadKeep_withMem (w : Width) (mode : AddrMode) :
    SameNext s.inWindow (loadKeep w mode s) (loadKeep w mode (s.withMem m)) :=
  finish_withMem h <| .bind_eq rfl fun _ => .bind_eq (memRead_withMem h _ .w64) fun a =>
    .bind_eq (memRead_withMem h (effAddr s mode a) w) fun v => putElem_withMem h 0 w v 1

theorem loadPop_withMem (w : Width) (mode : AddrMode) :
    SameNext s.inWindow (loadPop w mode s) (loadPop w mode (s.withMem m)) :=
  finish_withMem h <| .bind_eq rfl fun _ => .bind_eq (memRead_withMem h _ .w64) fun a =>
    .bind_eq (memRead_withMem h (effAddr s mode a) w) fun v => putElem_withMem h 8 w v 1

theorem storeTop_withMem (w : Width) (mode : AddrMode) (nPop : Nat) :
    SameNext s.inWindow (storeTop w mode nPop s) (storeTop w mode nPop (s.withMem m)) :=
  finish_withMem h <| .bind_eq rfl fun _ => .bind_eq (memRead_withMem h _ w) fun b =>
    .bind_eq (memRead_withMem h _ .w64) fun a =>
      .bind (memWrite_withMem h (effAddr s mode a) w b) fun _ _ hm => put_withMem hm _ _

theorem storeBeneath_withMem (w : Width) (mode : AddrMode) (nPop : Nat) :
    SameNext s.inWindow (storeBeneath w mode nPop s) (storeBeneath w mode nPop (s.withMem m)) :=
  finish_withMem h <| .bind_eq rfl fun _ => .bind_eq (memRead_withMem h _ .w64) fun b =>
    .bind_eq (memRead_withMem h _ w) fun a =>
      .bind (memWrite_withMem h (effAddr s mode b) w a) fun _ _ hm => put_withMem hm _ _

theorem branchZero_withMem (w : Width) (target : Addr) (len : Nat) :
    SameNext s.inWindow (branchZero w target len s) (branchZero w target len (s.withMem m)) :=
  finish_withMem h <| .bind_eq rfl fun _ => .bind_eq (memRead_withMem h _ w) fun _ => put_withMem h _ _

theorem jmps_withMem : SameNext s.inWindow (execJmps s) (execJmps (s.withMem m)) :=
  finish_withMem h <| .bind_eq rfl fun _ => .bind_eq (memRead_withMem h _ .w64) fun a => put_withMem h _ a

theorem call_withMem (imm : BitVec 64) : SameNext s.inWindow (execCall imm s) (execCall imm (s.withMem m)) :=
  finish_withMem h <| .bind_eq rfl fun _ => .bind (memWrite_withMem h _ .w64 s.sfp) fun _ _ h₁ =>
    .bind (memWrite_withMem h₁ _ .w64 (up s.pc 9)) fun _ _ h₂ => enterFrame_withMem h₂ _ imm

theorem calls_withMem : SameNext s.inWindow (execCalls s) (execCalls (s.withMem m)) :=
  finish_withMem h <| .bind_eq rfl fun _ => .bind_eq (memRead_withMem h _ .w64) fun a =>
    .bind (memWrite_withMem h _ .w64 s.sfp) fun _ _ h₁ =>
      .bind (memWrite_withMem h₁ _ .w64 (up s.pc 1)) fun _ _ h₂ => enterFrame_withMem h₂ _ a

/-- A next state that differs from the old one in registers and status alone. -/
theorem next_withMem {t : State} (ht : t.mem = s.mem) : SameNext s.inWindow (.next t) (.next (t.withMem m)) :=
  .next (.withMem (ht ▸ h))

/-- Every instruction but ret has one of the shapes above. -/
theorem exec_withMem {i : Instr} (hi : i ≠ .ret) : SameNext s.inWindow (exec i s) (exec i (s.withMem m)) := by
  cases i with
  | push8 | push8asu16 | push8asu32 | push8asu64 | push8asi16 | push8asi32 | push8asi64 | push16 | push16asu32
  | push16asu64 | push16asi32 | push16asi64 | push32 | push32asu64 | push32asi64 | push64 =>
    exact pushElem_withMem h _ _ _
  | pop8 | pop16 | pop32 | pop64 => exact popElem_withMem h _
  | dup8 | dup16 | dup32 | dup64 => exact dupElem_withMem h _
  | set8 | set16 | set32 | set64 => exact setElem_withMem h _
  | prom8u16 | prom8u32 | prom8u64 | prom8i16 | prom8i32 | prom8i64 | prom16u32 | prom16u64 | prom16i32
  | prom16i64 | prom32u64 | prom32i64 | dem64to16 | dem64to8 | dem32to8 | binv8 | binv16 | binv32 | binv64
  | linv8 | linv16 | linv32 | linv64 => exact unary_withMem h _
  | add8 | add16 | add32 | add64 | sub8 | sub16 | sub32 | sub64 | subr8 | subr16 | subr32 | subr64 | mulu8
  | mulu16 | mulu32 | mulu64 | muli8 | muli16 | muli32 | muli64 | divu8 | divu16 | divu32 | divu64 | divru8
  | divru16 | divru32 | divru64 | divi8 | divi16 | divi32 | divi64 | divri8 | divri16 | divri32 | divri64 | modu8
  | modu16 | modu32 | modu64 | modru8 | modru16 | modru32 | modru64 | modi8 | modi16 | modi32 | modi64 | modri8
  | modri16 | modri32 | modri64 | lshift8 | lshift16 | lshift32 | lshift64 | rshiftu8 | rshiftu16 | rshiftu32
  | rshiftu64 | rshifti8 | rshifti16 | rshifti32 | rshifti64 | band8 | band16 | band32 | band64 | bor8 | bor16
  | bor32 | bor64 | bxor8 | bxor16 | bxor32 | bxor64 | land8 | land16 | land32 | land64 | lor8 | lor16 | lor32
  | lor64 | ceq8 | ceq16 | ceq32 | ceq64 | cne8 | cne16 | cne32 | cne64 | cgtu8 | cgtu16 | cgtu32 | cgtu64
  | cgti8 | cgti16 | cgti32 | cgti64 | cltu8 | cltu16 | cltu32 | cltu64 | clti8 | clti16 | clti32 | clti64
  | cgteu8 | cgteu16 | cgteu32 | cgteu64 | cgtei8 | cgtei16 | cgtei32 | cgtei64 | clteu8 | clteu16 | clteu32
  | clteu64 | cltei8 | cltei16 | cltei32 | cltei64 => exact binary_withMem h _
  | brz8 | brz16 | brz32 | brz64 | rbrz8i8 | rbrz8i16 | rbrz8i32 | rbrz16i8 | rbrz16i16 | rbrz16i32 | rbrz32i8
  | rbrz32i16 | rbrz32i32 | rbrz64i8 | rbrz64i16 | rbrz64i32 => exact branchZero_withMem h _ _ _
  | load8 | load16 | load32 | load64 | loadsfp8 | loadsfp16 | loadsfp32 | loadsfp64 => exact loadKeep_withMem h _ _
  | loadpop8 | loadpop16 | loadpop32 | loadpop64 | loadpopsfp8 | loadpopsfp16 | loadpopsfp32 | loadpopsfp64 =>
    exact loadPop_withMem h _ _
  | store8 | store16 | store32 | store64 | storepop8 | storepop16 | storepop32 | storepop64 | storesfp8
  | storesfp16 | storesfp32 | storesfp64 | storepopsfp8 | storepopsfp16 | storepopsfp32 | storepopsfp64 =>
    exact storeTop_withMem h _ _ _
  | storer8 | storer16 | storer32 | storer64 | storerpop8 | storerpop16 | storerpop32 | storerpop64 | storersfp8
  | storersfp16 | storersfp32 | storersfp64 | storerpopsfp8 | storerpopsfp16 | storerpopsfp32 | storerpopsfp64 =>
    exact storeBeneath_withMem h _ _ _
  | call imm => exact call_withMem h imm
  | calls => exact calls_withMem h
  | ret => exact absurd rfl hi
  | jmps => exact jmps_withMem h
  | jmp | rjmpi8 | rjmpi16 | rjmpi32 | nop => exact next_withMem (t := s.setPc _) h rfl
  | setsbp v => exact next_withMem (t := s.setSbp v _) h rfl
  | setsfp v => exact next_withMem (t := s.setSfp v _) h rfl
  | setsp v => exact next_withMem (t := s.setSp v _) h rfl
  | setslp v => exact next_withMem (t := s.setSlp v _) h rfl
  | ext | invalid => exact next_withMem (t := s.raise _) h rfl
  | halt => exact next_withMem (t := s.halt) h rfl

end

/-- Settles O17: the second state is the first with a memory that agrees outside the window. -/
theorem windowNeverRead : Obligations.WindowNeverRead := by
  intro i s s' hi h
  rw [h.eq_withMem]
  exact exec_withMem h.mem hi

end Sys2Proof.Machine
end

section
/-! PROOFS. The statements of 30_encoding.md: the round trips of decoder and encoder, what the op code byte fixes,
and the fetch of one step. -/

namespace Sys2Proof.Laws.TableRow

/-- The table builds back each of the 255 instructions, in the order of their constructors. -/
theorem statement (i : Instr) : Statement i :=
  Instr.casesOn (motive := Statement) i
    push8 push8asu16 push8asu32 push8asu64 push8asi16 push8asi32 push8asi64 push16 push16asu32 push16asu64
    push16asi32 push16asi64 push32 push32asu64 push32asi64 push64 pop8 pop16 pop32 pop64 dup8 dup16 dup32 dup64
    set8 set16 set32 set64 prom8u16 prom8u32 prom8u64 prom8i16 prom8i32 prom8i64 prom16u32 prom16u64 prom16i32
    prom16i64 prom32u64 prom32i64 dem64to16 dem64to8 dem32to8 add8 add16 add32 add64 sub8 sub16 sub32 sub64
    subr8 subr16 subr32 subr64 mulu8 mulu16 mulu32 mulu64 muli8 muli16 muli32 muli64 divu8 divu16 divu32 divu64
    divru8 divru16 divru32 divru64 divi8 divi16 divi32 divi64 divri8 divri16 divri32 divri64 modu8 modu16 modu32
    modu64 modru8 modru16 modru32 modru64 modi8 modi16 modi32 modi64 modri8 modri16 modri32 modri64 lshift8
    lshift16 lshift32 lshift64 rshiftu8 rshiftu16 rshiftu32 rshiftu64 rshifti8 rshifti16 rshifti32 rshifti64
    band8 band16 band32 band64 bor8 bor16 bor32 bor64 bxor8 bxor16 bxor32 bxor64 binv8 binv16 binv32 binv64
    land8 land16 land32 land64 lor8 lor16 lor32 lor64 linv8 linv16 linv32 linv64 ceq8 ceq16 ceq32 ceq64 cne8
    cne16 cne32 cne64 cgtu8 cgtu16 cgtu32 cgtu64 cgti8 cgti16 cgti32 cgti64 cltu8 cltu16 cltu32 cltu64 clti8
    clti16 clti32 clti64 cgteu8 cgteu16 cgteu32 cgteu64 cgtei8 cgtei16 cgtei32 cgtei64 clteu8 clteu16 clteu32
    clteu64 cltei8 cltei16 cltei32 cltei64 call calls ret jmp jmps rjmpi8 rjmpi16 rjmpi32 brz8 brz16 brz32 brz64
    rbrz8i8 rbrz8i16 rbrz8i32 rbrz16i8 rbrz16i16 rbrz16i32 rbrz32i8 rbrz32i16 rbrz32i32 rbrz64i8 rbrz64i16
    rbrz64i32 setsbp setsfp setsp setslp nop ext halt invalid load8 load16 load32 load64 loadpop8 loadpop16
    loadpop32 loadpop64 loadsfp8 loadsfp16 loadsfp32 loadsfp64 loadpopsfp8 loadpopsfp16 loadpopsfp32
    loadpopsfp64 store8 store16 store32 store64 storepop8 storepop16 storepop32 storepop64 storesfp8 storesfp16
    storesfp32 storesfp64 storepopsfp8 storepopsfp16 storepopsfp32 storepopsfp64 storer8 storer16 storer32
    storer64 storerpop8 storerpop16 storerpop32 storerpop64 storersfp8 storersfp16 storersfp32 storersfp64
    storerpopsfp8 storerpopsfp16 storerpopsfp32 storerpopsfp64

end Sys2Proof.Laws.TableRow

namespace Sys2Proof

open Laws Machine

/-! ## Numberings (30_encoding.md R95, R96) -/

/-- Every mnemonic has its row in the table. -/
theorem Instr.number_lt (i : Instr) : i.number < 255 := by
  obtain ⟨row, hrow, -, -⟩ := TableRow.statement i
  rw [← opTable_length]
  exact (List.getElem?_eq_some_iff.mp hrow).1

theorem Instr.wf_iff {opc : List Byte} {i : Instr} :
    i.wf opc = true ↔ ∃ b, opc[i.number]? = some b ∧ opc.idxOf? b = some i.number := by
  unfold Instr.wf
  split <;> simp_all

theorem getElem?_of_idxOf? {opc : List Byte} {b : Byte} {n : Nat} (h : opc.idxOf? b = some n) : opc[n]? = some b := by
  obtain ⟨hn, hb, -⟩ := List.idxOf?_eq_some_iff.mp h
  exact List.getElem?_eq_some_iff.mpr ⟨hn, hb⟩

theorem rowOf_of_idxOf? {opc : List Byte} {b : Byte} {n : Nat} (h : opc.idxOf? b = some n) :
    rowOf opc b = opTable[n]? := by
  rw [rowOf, h]

theorem rowOf_of_not_mem {opc : List Byte} {b : Byte} (h : b ∉ opc) : rowOf opc b = none := by
  rw [rowOf, List.idxOf?_eq_none_iff.mpr h]

theorem encode_eq_cons {opc : List Byte} {i : Instr} {b : Byte} (h : opc[i.number]? = some b) :
    encode opc i = b :: i.immBytes := by
  rw [encode, List.getD_eq_getElem?_getD, h, Option.getD_some]

theorem encode_length (opc : List Byte) (i : Instr) : (encode opc i).length = i.length := by
  rw [encode, List.length_cons, Instr.length, Nat.add_comm]

/-- Settles O3: in a numbering without duplicates a mnemonic is found at its own place. -/
theorem everyInstrEncodable : Obligations.EveryInstrEncodable := by
  intro opc hopc i
  obtain ⟨hlength, hnodup⟩ : opc.length = 255 ∧ opc.Nodup := by simpa [opcWf] using hopc
  have hi : i.number < opc.length := hlength ▸ i.number_lt
  refine Instr.wf_iff.mpr ⟨opc[i.number], List.getElem?_eq_getElem hi, List.idxOf?_eq_some_iff.mpr ⟨hi, rfl, ?_⟩⟩
  intro j hj heq
  exact hj.ne (hnodup.getElem_inj_iff.mp heq)

/-! ## Decoding (30_encoding.md R90 to R93) -/

/-- The decoder's answer for a byte string with an op code byte. -/
theorem decode_cons_eq_ok {opc : List Byte} {b : Byte} {bs : List Byte} {i : Instr} {rest : List Byte} :
    decode opc (b :: bs) = .ok (i, rest) ↔
      ∃ row, rowOf opc b = some row ∧ row.immLen ≤ bs.length ∧
        row.build (leNat (bs.take row.immLen)) = i ∧ bs.drop row.immLen = rest := by
  cases hrow : rowOf opc b with
  | none => simp [decode, hrow]
  | some row =>
    by_cases hshort : bs.length < row.immLen
    · simp [decode, hrow, hshort]
    · simp [decode, hrow, hshort, Nat.le_of_not_lt hshort]

/-- What a row builds of the bytes at the head of a string has those bytes as its immediate. -/
theorem immBytes_build_take {n : Nat} {row : OpRow} {bs : List Byte} (h : opTable[n]? = some row)
    (hlen : row.immLen ≤ bs.length) :
    (row.build (leNat (bs.take row.immLen))).immBytes = bs.take row.immLen := by
  have hbytes := leBytes_leNat (bs.take row.immLen)
  rw [List.length_take_of_le hlen] at hbytes
  rw [(opTable_build h _).2, hbytes]

/-- Settles O1: the op code byte selects the instruction's own row, which builds it back from its immediate. -/
theorem decodeReadsBackEncode : Obligations.DecodeReadsBackEncode := by
  intro opc i rest hwf
  obtain ⟨b, hb, hidx⟩ := Instr.wf_iff.mp hwf
  obtain ⟨row, hrow, hlen, hbuild⟩ := TableRow.statement i
  rw [encode_eq_cons hb, List.cons_append]
  refine decode_cons_eq_ok.mpr ⟨row, (rowOf_of_idxOf? hidx).trans hrow, ?_, ?_, ?_⟩
  · simp [hlen]
  · rw [hlen, List.take_left, hbuild]
  · rw [hlen, List.drop_left]

/-- Settles O2: the row that was selected stands at the place of the op code byte, and what it builds keeps the bytes it
was given. -/
theorem encodeWritesBackDecode : Obligations.EncodeWritesBackDecode := by
  intro opc bytes i rest h
  cases bytes with
  | nil => cases h
  | cons b bs =>
    obtain ⟨row, hrow, hlen, rfl, rfl⟩ := decode_cons_eq_ok.mp h
    obtain ⟨n, hidx, hn⟩ := rowOf_eq_some hrow
    have hnumber := (opTable_build hn (leNat (bs.take row.immLen))).1
    have hb := getElem?_of_idxOf? hidx
    rw [← hnumber] at hidx hb
    refine ⟨Instr.wf_iff.mpr ⟨b, hb, hidx⟩, ?_⟩
    rw [encode_eq_cons hb, immBytes_build_take hn hlen, List.cons_append, List.take_append_drop]

/-- The row of an op code byte fixes number and length of what it builds. -/
theorem number_length_of_decode {opc : List Byte} {b : Byte} {bs : List Byte} {i : Instr} {rest : List Byte}
    (h : decode opc (b :: bs) = .ok (i, rest)) :
    ∃ n row, opc.idxOf? b = some n ∧ opTable[n]? = some row ∧ i.number = n ∧ i.length = 1 + row.immLen := by
  obtain ⟨row, hrow, -, rfl, -⟩ := decode_cons_eq_ok.mp h
  obtain ⟨n, hidx, hn⟩ := rowOf_eq_some hrow
  exact ⟨n, row, hidx, hn, (opTable_build hn _).1, build_length hn _⟩

/-- Settles O4: both strings select the same row. -/
theorem opcodeByteFixesFormat : Obligations.OpcodeByteFixesFormat := by
  intro opc b bs bs' i i' r r' h h'
  obtain ⟨n, row, hidx, hrow, hnumber, hlength⟩ := number_length_of_decode h
  obtain ⟨n', row', hidx', hrow', hnumber', hlength'⟩ := number_length_of_decode h'
  obtain rfl : n = n' := Option.some.inj (hidx.symm.trans hidx')
  obtain rfl : row = row' := Option.some.inj (hrow.symm.trans hrow')
  exact ⟨hnumber.trans hnumber'.symm, hlength.trans hlength'.symm⟩

/-- Settles O5: a decoded instruction is written back with all its bytes (O2), whose number the first byte fixes (O4). -/
theorem truncatedEncodingRefused : Obligations.TruncatedEncodingRefused := by
  intro opc i k hwf hk ⟨i', rest⟩ h
  cases k with
  | zero => cases h
  | succ k =>
    have hfull := decodeReadsBackEncode opc i [] hwf
    have hback := congrArg List.length (encodeWritesBackDecode _ _ _ _ h).2
    rw [encode, List.take_succ_cons] at h
    rw [encode, List.cons_append] at hfull
    have hlength : i'.length = i.length := (opcodeByteFixesFormat _ _ _ _ _ _ _ _ h hfull).2
    rw [List.length_append, List.length_take, encode_length, encode_length] at hback
    omega

/-- A byte that the numbering gives to no mnemonic is refused, whatever follows. -/
theorem decode_of_not_mem {opc : List Byte} {b : Byte} (bs : List Byte) (h : b ∉ opc) :
    decode opc (b :: bs) = .error (.unassigned b) := by
  rw [decode, rowOf_of_not_mem h]

/-! ## The default numbering (30_encoding.md R95) -/

theorem not_mem_defaultOpc {b : Byte} : b ∉ Config.defaultOpc ↔ b = 0xFF := by
  have hmem : b ∈ Config.defaultOpc ↔ b.toNat < 255 := by
    simp only [Config.defaultOpc, List.mem_map, List.mem_range]
    constructor
    · rintro ⟨n, hn, rfl⟩
      rw [BitVec.toNat_ofNat]
      omega
    · exact fun hb => ⟨b.toNat, hb, by simp⟩
  rw [hmem]
  bv_omega

/-- The default op code byte of an instruction is its number. -/
theorem encode_defaultOpc (i : Instr) : encode Config.defaultOpc i = BitVec.ofNat 8 i.number :: i.immBytes :=
  encode_eq_cons (by simp [Config.defaultOpc, i.number_lt])

/-- A word whose bytes begin with the default encoding of an instruction decodes to it. -/
theorem decodeTableWord_of_bytes {nbits w : Nat} {i : Instr} (rest : List Byte)
    (h : leBytes maxLength (w % 2 ^ nbits) = BitVec.ofNat 8 i.number :: i.immBytes ++ rest) :
    decodeTableWord nbits w = some i := by
  have hwf : i.wf Config.defaultOpc = true := everyInstrEncodable _ opcWf_default i
  rw [decodeTableWord, h, ← encode_defaultOpc, decodeReadsBackEncode _ _ _ hwf]

theorem decodeTableWord_of_unassigned {nbits w : Nat} (rest : List Byte)
    (h : leBytes maxLength (w % 2 ^ nbits) = 0xFF :: rest) : decodeTableWord nbits w = none := by
  rw [decodeTableWord, h, decode_of_not_mem rest (not_mem_defaultOpc.mpr rfl)]

/-- Settles O6: each word is laid out as its bytes, the op code number, the immediate and zeros. -/
theorem sampleWordsDecode : Obligations.SampleWordsDecode :=
  ⟨decodeTableWord_of_bytes (List.replicate 8 0) (by decide),
    decodeTableWord_of_bytes (List.replicate 8 0) (by decide),
    decodeTableWord_of_bytes (List.replicate 7 0) (by decide),
    decodeTableWord_of_bytes (List.replicate 6 0) (by decide),
    decodeTableWord_of_bytes (List.replicate 4 0) (by decide),
    decodeTableWord_of_bytes [] (by decide),
    decodeTableWord_of_unassigned (List.replicate 8 0) (by decide)⟩

end Sys2Proof

namespace Sys2Proof.Machine

/-! ## The fetch of one step (30_encoding.md R94) -/

theorem step_of_fetchInstr_ok {s : State} {i : Instr} (hs : s.status = .running) (h : fetchInstr s = .ok i) :
    step s = exec i s := by
  simp only [step, hs, h]

theorem step_of_fetchInstr_error {s : State} {c : FaultCause} (hs : s.status = .running)
    (h : fetchInstr s = .error c) : step s = .next (s.raise c) := by
  simp only [step, hs, h]

theorem fetch_error {s : State} {a : Addr} {n j : Nat} (hj : j < n) (hp : s.mapped (up a j) = false)
    (hk : ∀ k < j, s.mapped (up a k) = true) : fetch s a n = .error (.accessFault (up a j)) := by
  rw [fetch, mapCheck_error hj hp hk, except_bind_error]

theorem fetch_opcode {s : State} (h : s.mapped s.pc = true) : fetch s s.pc 1 = .ok (s.mem.get s.pc.toNat).toNat := by
  have hpc : MappedOk s s.pc 1 := fun j hj => by rwa [Nat.lt_one_iff.mp hj, up_zero]
  rw [fetch_ok hpc, Memory.loadLE, Memory.loadLE, Nat.mul_zero, Nat.add_zero]

theorem fetchInstr_of_not_mapped {s : State} (h : s.mapped s.pc = false) :
    fetchInstr s = .error (.accessFault s.pc) := by
  rw [← up_zero s.pc] at h
  rw [fetchInstr, fetch_error Nat.one_pos h (fun k hk => absurd hk k.not_lt_zero), except_bind_error, up_zero]

theorem fetchInstr_of_rowOf_none {s : State} (hpc : s.mapped s.pc = true)
    (hrow : rowOf s.cfg.opc (s.mem.get s.pc.toNat) = none) : fetchInstr s = .error .invalidInstruction := by
  simp [fetchInstr, fetch_opcode hpc, hrow]

/-- After the op code byte the immediate is fetched, and the row builds the instruction from it. -/
theorem fetchInstr_of_rowOf_some {s : State} {row : OpRow} (hpc : s.mapped s.pc = true)
    (hrow : rowOf s.cfg.opc (s.mem.get s.pc.toNat) = some row) :
    fetchInstr s = fetch s (s.pc + 1) row.immLen >>= fun v => .ok (row.build v) := by
  simp [fetchInstr, fetch_opcode hpc, hrow]

/-- The bytes from PC on decode to what the row of the first builds from the number in memory after it. -/
theorem rowOf_of_decode_bytesAt {m : Memory} {opc : List Byte} {a : Addr} {n : Nat} {i : Instr} {rest : List Byte}
    (h : decode opc (m.bytesAt a (n + 1)) = .ok (i, rest)) :
    ∃ row, rowOf opc (m.get a.toNat) = some row ∧ row.build (m.loadLE (a + 1) row.immLen) = i ∧
      i.length = 1 + row.immLen := by
  rw [Memory.bytesAt] at h
  obtain ⟨row, hrow, hlen, hbuild, -⟩ := decode_cons_eq_ok.mp h
  rw [Memory.bytesAt_length] at hlen
  rw [Memory.take_bytesAt m _ hlen, ← Memory.loadLE_eq_leNat] at hbuild
  obtain ⟨n, -, hn⟩ := Laws.rowOf_eq_some hrow
  exact ⟨row, hrow, hbuild, hbuild ▸ Laws.build_length hn _⟩

/-- Settles O7: with the instruction's bytes mapped, both fetches pass. -/
theorem stepRunsDecoded : Obligations.StepRunsDecoded := by
  intro s i rest hs h hm
  obtain ⟨row, hrow, rfl, hlength⟩ := rowOf_of_decode_bytesAt h
  rw [hlength] at hm
  have hpc : s.mapped s.pc = true := up_zero s.pc ▸ hm 0 (by omega)
  have himm : MappedOk s (s.pc + 1) row.immLen := fun j hj => up_succ s.pc j ▸ hm (j + 1) (by omega)
  apply step_of_fetchInstr_ok hs
  rw [fetchInstr_of_rowOf_some hpc hrow, fetch_ok himm, except_bind_ok]

/-- Settles O9: the first unmapped byte is the op code's, or the immediate's after an op code byte that passed. -/
theorem fetchFaults : Obligations.FetchFaults := by
  intro s hs
  refine ⟨fun hpc => step_of_fetchInstr_error hs (fetchInstr_of_not_mapped hpc), ?_⟩
  intro i rest j h hj hji hp hk
  obtain ⟨j, rfl⟩ := Nat.exists_eq_add_one_of_ne_zero hj.ne'
  obtain ⟨row, hrow, rfl, hlength⟩ := rowOf_of_decode_bytesAt h
  rw [up_succ] at hp ⊢
  have hpc : s.mapped s.pc = true := up_zero s.pc ▸ hk 0 hj
  have hbefore : ∀ k < j, s.mapped (up (s.pc + 1) k) = true := fun k hkj => up_succ s.pc k ▸ hk (k + 1) (by omega)
  apply step_of_fetchInstr_error hs
  rw [fetchInstr_of_rowOf_some hpc hrow, fetch_error (by omega) hp hbefore, except_bind_error]

/-- Settles O10: the byte has no row, so neither decoder nor fetch builds an instruction from it. -/
theorem unassignedByteFaults : Obligations.UnassignedByteFaults := by
  refine ⟨fun _ _ bs hb => decode_of_not_mem bs hb, fun _ => not_mem_defaultOpc, fun s hs hpc hb => ⟨?_, rfl⟩⟩
  exact step_of_fetchInstr_error hs (fetchInstr_of_rowOf_none hpc (rowOf_of_not_mem hb))

end Sys2Proof.Machine
end

section
/-! PROOFS. The statements of 40_push_pop_dup_set.md: what a push, a pop, a duplication and a set operation leave, and the
faults of a push. Each table of Safety.lean names the shape of its instructions, and each shape has its next state. -/

namespace Sys2Proof.Machine

/-! ## A push whose write raises (20_memory.md R60, 60_exceptions.md R485) -/

theorem putElem_error {s : State} {nIn : Nat} {w : Width} {v : Elem w} {len : Nat} {c : FaultCause}
    (h : DataFault s (resultAddr s nIn w.bytes) w.bytes c) : putElem s nIn w v len = .error c := by
  rw [putElem, memWrite_error h, except_bind_error]

/-- After a StackCheck that passes, the fault of the write is the answer. -/
theorem pushElem_raise {s : State} {w : Width} {v : Elem w} {len : Nat} {c : FaultCause} (h : StackOk s 0 w.bytes)
    (hc : DataFault s (resultAddr s 0 w.bytes) w.bytes c) : pushElem w v len s = .next (s.raise c) := by
  rw [pushElem, stackCheck_ok h, except_bind_ok, putElem_error hc, finish_error]

/-- Settles O27: the write of the element raises, whatever the element is. -/
theorem pushIntoWindowOrHoleFaults : Obligations.PushIntoWindowOrHoleFaults := by
  intro i s w sg z c hi hs hc
  obtain ⟨v, hexec, -⟩ := exec_of_pushes hi s
  exact hexec.trans (pushElem_raise hs hc)

/-! ## What the instructions leave (40_push_pop_dup_set.md R120 to R148) -/

/-- Settles O26: every push is the push of an element that stands for the integer of its table row. -/
theorem pushResult : Obligations.PushResult := by
  intro i s w sg z hi hs hr
  obtain ⟨v, hexec, hv⟩ := exec_of_pushes hi s
  exact ⟨_, v, hexec.trans (pushElem_ok hs hr), leavesElem_stored s 0 w v i.length, hv⟩

/-- Settles O28: the StackCheck is the only check of a pop. -/
theorem popResult : Obligations.PopResult := fun _ s _ hi hs => (exec_of_pops hi s).trans (popElem_ok hs)

/-- Settles O30: the element read at SP is stored below it. -/
theorem dupResult : Obligations.DupResult := fun _ s w hi hs ha hr =>
  ⟨_, (exec_of_dups hi s).trans (dupElem_ok hs ha hr), leavesElem_stored s 0 w (s.elem s.sp w) 1⟩

/-- Settles O31: the element read at SP is stored in place of the two. -/
theorem setResult : Obligations.SetResult := fun _ s w hi hs hb hr =>
  ⟨_, (exec_of_setsBelow hi s).trans (setElem_ok hs hb hr), leavesElem_stored s (2 * w.bytes) w (s.elem s.sp w) 1⟩

end Sys2Proof.Machine
end

section
/-! PROOFS. The statement of 41_promotion_demotion.md: what a promotion and a demotion leave. -/

namespace Sys2Proof.Machine

/-! ## Promotion and demotion (41_promotion_demotion.md R160 to R175) -/

/-- Settles O32: a conversion is the unary shape with its function. A promotion never narrows, which is what zero and sign
extension need to keep the integer; truncation keeps the low bits between any two widths. -/
theorem conversionResult : Obligations.ConversionResult := by
  intro i s wa wr k hi hok
  obtain ⟨hexec, hwiden⟩ := exec_of_converts hi s
  have hnext := hexec.trans (unary_ok (k.fn wa wr) hok)
  have hleaves := leavesElem_stored s wa.bytes wr (k.fn wa wr (s.elem s.sp wa)) 1
  exact ⟨_, _, hnext, hleaves, Conversion.fn_holds hwiden (s.elem s.sp wa)⟩

end Sys2Proof.Machine
end

section
/-! PROOFS. The statements of 42_integer_arithmetic.md: sums, differences, products, quotients and remainders. Each table
of Safety.lean gives an instruction the shape `binary` with its function, so what remains is what the functions compute. -/

namespace Sys2Proof

open Machine

theorem Width.bits_pos (w : Width) : 0 < w.bits := by cases w <;> decide

/-! ## The shape of two operands -/

theorem binary_leaves {s : State} {wa wb wr : Width} {f : Elem wa → Elem wb → Except FaultCause (Elem wr)}
    {r : Elem wr} (h : BinaryOk s wa wb wr) (hf : f (s.beneath wa wb) (s.elem s.sp wb) = .ok r) :
    ∃ t, binary wa wb wr f s = .next t ∧ LeavesElem s t (wa.bytes + wb.bytes) wr r 1 :=
  ⟨_, binary_ok h hf, leavesElem_stored s (wa.bytes + wb.bytes) wr r 1⟩

theorem binaryPure_leaves {s : State} {wa wb wr : Width} (f : Elem wa → Elem wb → Elem wr)
    (h : BinaryOk s wa wb wr) :
    ∃ t, binaryPure wa wb wr f s = .next t ∧
      LeavesElem s t (wa.bytes + wb.bytes) wr (f (s.beneath wa wb) (s.elem s.sp wb)) 1 := binary_leaves h rfl

/-- Where the machine still runs, the computation answered the new top element. -/
theorem binary_running {s t : State} {wa wb wr : Width} {f : Elem wa → Elem wb → Except FaultCause (Elem wr)}
    (h : binary wa wb wr f s = .next t) (ht : t.status = .running) :
    f (s.beneath wa wb) (s.elem s.sp wb) = .ok (t.elem t.sp wr) := by
  rcases binary_cases s f with ⟨hok, r, hf⟩ | ⟨c, hraise⟩
  · rw [binary_ok hok hf] at h
    cases h
    rw [hf]
    exact congrArg Except.ok (stored_value ..).symm
  · rw [hraise] at h
    cases h
    cases ht

/-! ## Sums, differences, products (R180, R181) -/

/-- Settles O33: the function of an additive instruction computes the mathematical result modulo 2^N. -/
theorem addSubResult : Obligations.AddSubResult := by
  intro i s w op hi hok
  obtain ⟨t, hnext, hleaves⟩ := binaryPure_leaves op.fn hok
  exact ⟨t, _, (exec_of_adds hi s).trans hnext, hleaves, op.fn_toNat _ _⟩

/-- Settles O34: the function of a multiplication computes the product modulo 2^N. -/
theorem mulResult : Obligations.MulResult := by
  intro i s w sg hi hok
  obtain ⟨t, hnext, hleaves⟩ := binaryPure_leaves (mulFn sg) hok
  exact ⟨t, _, (exec_of_muls hi s).trans hnext, hleaves, mulFn_toNat sg _ _⟩

/-- The two readings of a pattern agree modulo 2^N, and so do their products. -/
theorem muluElem_eq_muliElem {n : Nat} (a b : BitVec n) : muluElem a b = muliElem a b := by
  apply eq_of_modEq
  rw [muluElem_toNat, muliElem_toNat, ((toInt_modEq a).mul (toInt_modEq b)).eq]

/-- Settles O35: both instructions are the same shape with the same function. -/
theorem mulSignednessImmaterial : Obligations.MulSignednessImmaterial := by
  intro i j s w hi hj
  have hfn : mulFn .unsigned (n := w.bits) = mulFn .signed := funext₂ muluElem_eq_muliElem
  rw [exec_of_muls hi, exec_of_muls hj, hfn]

/-! ## What a division computes (R182 to R184)

One function serves the signed and the unsigned instructions: truncation is rounding down where both operands are
nonnegative. -/

/-- The integer that a division of x by y keeps, before its reduction modulo 2^N. -/
def DivPart.value (p : DivPart) (x y : Int) : Int :=
  match p with
  | .quotient => x.tdiv y
  | .remainder => x.tmod y

/-- The signed division of x by y whose quotient has no representation (R184). -/
def DivOverflows (sg : Signedness) {n : Nat} (x y : BitVec n) : Prop :=
  sg = .signed ∧ x.toInt = minInt n ∧ y.toInt = -1

theorem ne_zero_of_toInt_eq_neg_one {n : Nat} {y : BitVec n} (h : y.toInt = -1) : y ≠ 0 := by
  rintro rfl
  simp at h

theorem intVal_ne_zero (sg : Signedness) {n : Nat} {y : BitVec n} (h : y ≠ 0) : intVal sg y ≠ 0 := by
  cases sg with
  | unsigned => simpa [intVal] using BitVec.toNat_ne.mp h
  | signed => simpa [intVal] using BitVec.toInt_inj.not.mpr h

theorem ofInt_intVal (sg : Signedness) {n : Nat} (a : BitVec n) : BitVec.ofInt n (intVal sg a) = a := by
  cases sg with
  | unsigned => simp [intVal]
  | signed => exact BitVec.ofInt_toInt

theorem ofInt_quotient_unsigned {n : Nat} (x y : BitVec n) :
    BitVec.ofInt n (DivPart.quotient.value (intVal .unsigned x) (intVal .unsigned y)) =
      BitVec.ofNat n (x.toNat / y.toNat) := by
  rw [← BitVec.ofInt_natCast, Int.ofNat_tdiv]; rfl

theorem ofInt_remainder_unsigned {n : Nat} (x y : BitVec n) :
    BitVec.ofInt n (DivPart.remainder.value (intVal .unsigned x) (intVal .unsigned y)) =
      BitVec.ofNat n (x.toNat % y.toNat) := by
  rw [← BitVec.ofInt_natCast, Int.ofNat_tmod]; rfl

section
variable {d : DivOverflow} {sg : Signedness} {p : DivPart} {o : DivOrder} {n : Nat} {a b : BitVec n}

theorem divFn_zero (h : o.divisor a b = 0) : divFn d sg p o a b = .error .divideByZero := by
  cases sg <;> cases p
  · exact quotU_zero h
  · exact remU_zero h
  · exact quotI_zero h
  · exact remI_zero h

theorem divFn_overflow (h : DivOverflows sg (o.dividend a b) (o.divisor a b)) :
    divFn .fault sg p o a b = .error .divideOverflow := by
  obtain ⟨rfl, hx, hy⟩ := h
  cases p
  · exact quotI_overflow (ne_zero_of_toInt_eq_neg_one hy) hx hy
  · exact remI_overflow (ne_zero_of_toInt_eq_neg_one hy) hx hy

theorem divFn_ok (h : o.divisor a b ≠ 0) (h' : ¬ (d = .fault ∧ DivOverflows sg (o.dividend a b) (o.divisor a b))) :
    divFn d sg p o a b =
      .ok (BitVec.ofInt n (p.value (intVal sg (o.dividend a b)) (intVal sg (o.divisor a b)))) := by
  cases sg with
  | unsigned =>
    cases p with
    | quotient => rw [ofInt_quotient_unsigned]; exact quotU_ok h
    | remainder => rw [ofInt_remainder_unsigned]; exact remU_ok h
  | signed =>
    have hfits : ¬ (d = .fault ∧ (o.dividend a b).toInt = minInt n ∧ (o.divisor a b).toInt = -1) :=
      fun hc => h' ⟨hc.1, rfl, hc.2⟩
    cases p
    · exact quotI_ok h hfits
    · exact remI_ok h hfits

/-- A division that does not raise answers its integer modulo 2^N, overflow under wrap included. -/
theorem eq_of_divFn_eq_ok {r : BitVec n} (h : divFn d sg p o a b = .ok r) :
    r = BitVec.ofInt n (p.value (intVal sg (o.dividend a b)) (intVal sg (o.divisor a b))) := by
  by_cases hy : o.divisor a b = 0
  · rw [divFn_zero hy] at h
    cases h
  by_cases hover : d = .fault ∧ DivOverflows sg (o.dividend a b) (o.divisor a b)
  · obtain ⟨rfl, hover⟩ := hover
    rw [divFn_overflow hover] at h
    cases h
  · rw [divFn_ok hy hover] at h
    exact (Except.ok.inj h).symm

end

/-- Without overflow the result is exact. -/
theorem intVal_ofInt_value {sg : Signedness} (p : DivPart) {n : Nat} (hn : 0 < n) {x y : BitVec n}
    (h : ¬ DivOverflows sg x y) :
    intVal sg (BitVec.ofInt n (p.value (intVal sg x) (intVal sg y))) = p.value (intVal sg x) (intVal sg y) := by
  cases sg with
  | unsigned =>
    cases p with
    | quotient => rw [ofInt_quotient_unsigned, intVal, quotU_toNat]; exact Int.ofNat_tdiv ..
    | remainder => rw [ofInt_remainder_unsigned, intVal, remU_toNat]; exact Int.ofNat_tmod ..
  | signed =>
    cases p with
    | quotient => exact quotI_toInt hn fun hc => h ⟨rfl, hc⟩
    | remainder => exact remI_toInt hn x y

/-- A nonzero remainder has the sign of the dividend. -/
theorem tmod_pos_iff {x y : Int} (h : x.tmod y ≠ 0) : 0 < x.tmod y ↔ 0 < x := by
  have hdvd : ¬ y ∣ x := fun hd => h (Int.tmod_eq_zero_of_dvd hd)
  have hsign : (x.tmod y).sign = x.sign := by rw [Int.sign_tmod, if_neg hdvd]
  rw [← Int.sign_eq_one_iff_pos, hsign, Int.sign_eq_one_iff_pos]

theorem abs_tmod_lt (x : Int) {y : Int} (h : y ≠ 0) : |x.tmod y| < |y| := by
  rw [Int.abs_eq_natAbs, Int.abs_eq_natAbs, Int.natAbs_tmod, Int.ofNat_lt]
  exact Nat.mod_lt _ (Int.natAbs_pos.mpr h)

/-- Truncation is the division of R182. -/
theorem isDivision_value (sg : Signedness) {n : Nat} (x : BitVec n) {y : BitVec n} (h : y ≠ 0) :
    IsDivision sg (intVal sg x) (intVal sg y) (DivPart.quotient.value (intVal sg x) (intVal sg y))
      (DivPart.remainder.value (intVal sg x) (intVal sg y)) := by
  have hy := intVal_ne_zero sg h
  refine ⟨(Int.tdiv_mul_add_tmod ..).symm, ?_⟩
  cases sg with
  | unsigned =>
    have hpos : (0 : Int) < y.toNat := lt_of_le_of_ne (Int.natCast_nonneg _) hy.symm
    exact ⟨Int.tmod_nonneg (y.toNat : Int) (Int.natCast_nonneg x.toNat), Int.tmod_lt_of_pos (x.toNat : Int) hpos⟩
  | signed => exact ⟨abs_tmod_lt _ hy, tmod_pos_iff⟩

/-- 2^(N-1), which has no signed representation, wraps around to MIN. -/
theorem toInt_ofInt_neg_minInt {n : Nat} (hn : 0 < n) : (BitVec.ofInt n (-minInt n)).toInt = minInt n := by
  have hpow : (2 : Int) ^ n = 2 * 2 ^ (n - 1) := by rw [← pow_succ', Nat.sub_add_cancel hn]
  have hpos : (0 : Int) < 2 ^ (n - 1) := by positivity
  have hneg : -minInt n = minInt n + 2 ^ n := by rw [minInt, hpow]; ring
  have hwrap : BitVec.ofInt n (-minInt n) = BitVec.ofInt n (minInt n) := by
    apply eq_of_modEq
    rw [toNat_ofInt_emod, toNat_ofInt_emod, hneg, Int.add_emod_right]
  rw [hwrap]
  exact toInt_ofInt_of_range hn le_rfl (by rw [minInt]; omega)

theorem quotient_value_neg_one (x : Int) : DivPart.quotient.value x (-1) = -x := by
  rw [DivPart.value, Int.tdiv_neg, Int.tdiv_one]

theorem remainder_value_neg_one (x : Int) : DivPart.remainder.value x (-1) = 0 := by
  rw [DivPart.value, Int.tmod_neg, Int.tmod_one]

/-! ## The statements about division (R182 to R184, R205 to R236) -/

/-- Settles O36: the two parts of a truncating division are exact, and are those of R182. -/
theorem divisionResult : Obligations.DivisionResult := by
  rintro i s w sg p o hi hok x y rfl rfl hy hfits
  have hover : ¬ DivOverflows sg (o.dividend (s.beneath w w) (s.elem s.sp w))
      (o.divisor (s.beneath w w) (s.elem s.sp w)) := fun ⟨hsg, hc⟩ => hfits hsg hc
  obtain ⟨t, hnext, hleaves⟩ := binary_leaves hok (divFn_ok (p := p) hy fun hc => hover hc.2)
  refine ⟨t, _, _, _, (exec_of_divides hi s).trans hnext, hleaves, isDivision_value sg _ hy, ?_⟩
  rw [intVal_ofInt_value p w.bits_pos hover]
  cases p <;> rfl

/-- Settles O37: the divisor is checked before anything is computed or written. -/
theorem divideByZeroFaults : Obligations.DivideByZeroFaults := fun _ s _ _ _ _ hi hok hy =>
  (exec_of_divides hi s).trans (binary_raises hok (divFn_zero hy))

/-- Settles O38: under fault the check raises, under wrap the quotient 2^(N-1) is reduced modulo 2^N. -/
theorem divideOverflowFaultsOrWraps : Obligations.DivideOverflowFaultsOrWraps := by
  refine ⟨rfl, fun i s w p o hi hx hy => ⟨fun hfault hok => ?_, fun hwrap hok => ?_⟩⟩
  · rw [exec_of_divides hi, hfault]
    exact binary_raises hok (divFn_overflow ⟨rfl, hx, hy⟩)
  · have hvalue := divFn_ok (d := .wrap) (sg := .signed) (p := p) (ne_zero_of_toInt_eq_neg_one hy) nofun
    obtain ⟨t, hnext, hleaves⟩ := binary_leaves hok hvalue
    refine ⟨t, _, ?_, hleaves, ?_⟩
    · rw [exec_of_divides hi, hwrap, hnext]
    · simp only [intVal, hx, hy]
      cases p with
      | quotient => rw [quotient_value_neg_one]; exact toInt_ofInt_neg_minInt w.bits_pos
      | remainder => rw [remainder_value_neg_one]; simp

/-- Settles O39: both instructions computed, so their integers satisfy the equation of R182, and with it
their patterns. -/
theorem quotientAndRemainderGiveDividend : Obligations.QuotientAndRemainderGiveDividend := by
  intro i j s t u w sg o hi hj _ ht htrun hu hurun
  rw [exec_of_divides hi] at ht
  rw [exec_of_divides hj] at hu
  have hq := eq_of_divFn_eq_ok (binary_running ht htrun)
  have hr := eq_of_divFn_eq_ok (binary_running hu hurun)
  generalize o.dividend (s.beneath w w) (s.elem s.sp w) = x at hq hr ⊢
  generalize o.divisor (s.beneath w w) (s.elem s.sp w) = y at hq hr ⊢
  calc t.elem t.sp w * y + u.elem u.sp w
      = BitVec.ofInt w.bits ((intVal sg x).tdiv (intVal sg y)) * BitVec.ofInt w.bits (intVal sg y) +
          BitVec.ofInt w.bits ((intVal sg x).tmod (intVal sg y)) := by rw [hq, hr, ofInt_intVal]; rfl
    _ = BitVec.ofInt w.bits ((intVal sg x).tdiv (intVal sg y) * intVal sg y + (intVal sg x).tmod (intVal sg y)) := by
        rw [BitVec.ofInt_add, BitVec.ofInt_mul]
    _ = x := by rw [Int.tdiv_mul_add_tmod, ofInt_intVal]

end Sys2Proof
end

section
/-! PROOFS. The statements of 43_shift_bitwise.md: the shifts and the bitwise logical operations. An instruction has the
shape of its table, so what remains is what its function computes on elements. -/

namespace Sys2Proof

open Machine

/-! ## Shifts (R250 to R252, R254 to R265) -/

theorem shiftElem_holds (op : ShiftOp) {n : Nat} (a : BitVec n) {count : Byte} (h : count.toNat < n) :
    op.Holds a count.toNat (shiftElem op a count) := by
  cases op with
  | lshift => exact shiftElem_lshift h
  | rshiftu => exact shiftElem_rshiftu h
  | rshifti => exact shiftElem_rshifti h

/-- Settles O40: below the width, the shift computes the integer of its rule. -/
theorem shiftInRangeResult : Obligations.ShiftInRangeResult := by
  intro i s w op hi hok hcount
  obtain ⟨t, hnext, hleaves⟩ := binaryPure_leaves (shiftElem op) hok
  exact ⟨t, _, (exec_of_shifts hi s).trans hnext, hleaves, shiftElem_holds op _ hcount⟩

/-- Settles O41: from the width on, the element that the shift leaves is the free value itself. -/
theorem shiftOverResult : Obligations.ShiftOverResult := by
  intro i s w op hi hok hcount
  obtain ⟨t, hnext, hleaves⟩ := binaryPure_leaves (shiftElem op) hok
  rw [shiftElem_over hcount] at hleaves
  exact ⟨t, (exec_of_shifts hi s).trans hnext, hleaves⟩

/-! ## Bitwise logical operations (R253, R266 to R281) -/

theorem unary_leaves {s : State} {wa wr : Width} (f : Elem wa → Elem wr) (h : UnaryOk s wa wr) :
    ∃ t, unary wa wr f s = .next t ∧ LeavesElem s t wa.bytes wr (f (s.elem s.sp wa)) 1 :=
  ⟨_, unary_ok f h, leavesElem_stored s wa.bytes wr (f (s.elem s.sp wa)) 1⟩

theorem BitOp.fn_getLsbD (op : BitOp) {n : Nat} (a b : BitVec n) (k : Nat) :
    (op.fn a b).getLsbD k = op.value (a.getLsbD k) (b.getLsbD k) := by
  cases op with
  | band => exact BitVec.getLsbD_and
  | bor => exact BitVec.getLsbD_or
  | bxor => exact BitVec.getLsbD_xor

/-- Settles O42: every operation works on each bit alone. -/
theorem bitwiseResult : Obligations.BitwiseResult := by
  constructor
  · intro i s w op hi hok
    obtain ⟨t, hnext, hleaves⟩ := binaryPure_leaves op.fn hok
    exact ⟨t, _, (exec_of_bitwise hi s).trans hnext, hleaves, fun k _ => op.fn_getLsbD _ _ k⟩
  · intro i s w hi hok
    obtain ⟨t, hnext, hleaves⟩ := unary_leaves (fun a => ~~~a) hok
    refine ⟨t, _, (exec_of_inverts hi s).trans hnext, hleaves, fun k hk => ?_⟩
    rw [BitVec.getLsbD_not, decide_eq_true hk, Bool.true_and]

end Sys2Proof
end

section
/-! PROOFS. The statements of 44_boolean_comparison.md: the Boolean operations and the comparisons. Each has a Boolean
shape with its condition, so what remains is that the condition is the relation of the integers, and that the element left
is 1 or 0 in either width. -/

namespace Sys2Proof

open Machine

/-! ## The width of a Boolean result (R290) -/

theorem boolWidth_of_operand {s : State} (h : s.cfg.boolw = .operand) (w : Width) : boolWidth s w = w := by
  rw [boolWidth, h]

theorem boolWidth_of_byte {s : State} (h : s.cfg.boolw = .byte) (w : Width) : boolWidth s w = .w8 := by
  rw [boolWidth, h]

/-- Settles O45: each setting has its equation, and for 8-bit operands they agree. -/
theorem booleanWidthParameter : Obligations.BooleanWidthParameter := by
  refine fun s w => ⟨fun h => boolWidth_of_operand h w, fun h => boolWidth_of_byte h w, ?_⟩
  cases h : s.cfg.boolw with
  | operand => exact boolWidth_of_operand h .w8
  | byte => exact boolWidth_of_byte h .w8

/-! ## The conditions (R291) -/

/-- Either reading tells patterns apart. -/
theorem intVal_inj (sg : Signedness) {n : Nat} {a b : BitVec n} : intVal sg a = intVal sg b ↔ a = b := by
  refine ⟨fun h => ?_, congrArg _⟩
  rw [← ofInt_intVal sg a, h, ofInt_intVal]

theorem truth_iff {n : Nat} (a : BitVec n) : truth a = true ↔ a ≠ 0 := decide_eq_true_iff

theorem not_truth_iff {n : Nat} (a : BitVec n) : (!truth a) = true ↔ a = 0 := by
  rw [Bool.not_eq_true', Bool.eq_false_iff, Ne, truth_iff, not_not]

theorem intVal_zero (sg : Signedness) (n : Nat) : intVal sg (0 : BitVec n) = 0 := by
  cases sg <;> simp [intVal]

/-- An element is true when the integer it stands for is not zero, signed or not. -/
theorem truth_iff_intVal (sg : Signedness) {n : Nat} (a : BitVec n) : truth a = true ↔ intVal sg a ≠ 0 := by
  rw [truth_iff, Ne, ← intVal_inj sg, intVal_zero]

/-- The condition of an instruction is its relation of the integers. -/
theorem Relation.fn_iff (r : Relation) (sg : Signedness) {n : Nat} (a b : BitVec n) :
    r.fn sg a b = true ↔ r.Holds (intVal sg a) (intVal sg b) := by
  cases r with
  | bothTrue => simp only [Relation.fn, Relation.Holds, Bool.and_eq_true, truth_iff_intVal sg]
  | anyTrue => simp only [Relation.fn, Relation.Holds, Bool.or_eq_true, truth_iff_intVal sg]
  | eq => simp only [Relation.fn, Relation.Holds, condEq, decide_eq_true_iff, BitVec.toNat_inj, intVal_inj]
  | ne => simp only [Relation.fn, Relation.Holds, condNe, decide_eq_true_iff, Ne, BitVec.toNat_inj, intVal_inj]
  | gt | lt | ge | le => exact decide_eq_true_iff

/-! ## What the Boolean shapes leave (R290) -/

theorem boolElem_true_toNat (w : Width) : (boolElem w true).toNat = 1 := by cases w <;> rfl

theorem boolElem_false_toNat (w : Width) : (boolElem w false).toNat = 0 := by cases w <;> rfl

/-- A Boolean element is 1 or 0 as the proposition that its condition decides. -/
theorem boolElem_toNat_of_iff {w : Width} {c : Bool} {p : Prop} (h : c = true ↔ p) :
    (p → (boolElem w c).toNat = 1) ∧ (¬ p → (boolElem w c).toNat = 0) := by
  refine ⟨fun hp => ?_, fun hp => ?_⟩
  · rw [h.mpr hp, boolElem_true_toNat]
  · rw [Bool.eq_false_iff.mpr (mt h.mp hp), boolElem_false_toNat]

/-- A binary Boolean operation or a comparison leaves whether its relation holds. -/
theorem binaryBool_leaves {s : State} {w : Width} (r : Relation) (sg : Signedness)
    (h : BinaryOk s w w (boolWidth s w)) :
    ∃ t v, binaryBool w (r.fn sg) s = .next t ∧ LeavesElem s t (w.bytes + w.bytes) (boolWidth s w) v 1 ∧
      (r.Holds (intVal sg (s.beneath w w)) (intVal sg (s.elem s.sp w)) → v.toNat = 1) ∧
      (¬ r.Holds (intVal sg (s.beneath w w)) (intVal sg (s.elem s.sp w)) → v.toNat = 0) := by
  obtain ⟨t, hnext, hleaves⟩ := binaryPure_leaves (fun a b => boolElem (boolWidth s w) (r.fn sg a b)) h
  exact ⟨t, _, hnext, hleaves, boolElem_toNat_of_iff (r.fn_iff sg _ _)⟩

/-! ## The statements (R292 to R343) -/

/-- Settles O43: land and lor test the unsigned integers, linv the element itself. -/
theorem booleanResult : Obligations.BooleanResult := by
  constructor
  · intro i s w r hi hok
    rw [exec_of_connects hi]
    exact binaryBool_leaves r .unsigned hok
  · intro i s w hi hok
    obtain ⟨t, hnext, hleaves⟩ := unary_leaves (fun a => boolElem (boolWidth s w) (!truth a)) hok
    exact ⟨t, _, (exec_of_negates hi s).trans hnext, hleaves, boolElem_toNat_of_iff (not_truth_iff _)⟩

/-- Settles O44: a comparison is the Boolean shape with the relation and the reading of its table row. -/
theorem comparisonResult : Obligations.ComparisonResult := by
  intro i s w r sg hi hok
  obtain ⟨hexec, -⟩ := exec_of_compares hi s
  rw [hexec]
  exact binaryBool_leaves r sg hok

end Sys2Proof
end

section
/-! PROOFS. The statements of 45_call_return.md: call, calls and ret. Both calls answer the same update of the state,
each for its own frame address, so the frame they leave is stated once; and the checks of ret read SFP, SBP, SLP and the
configuration alone, so that a callee passes them because its call did. -/

namespace Sys2Proof.Machine

/-! ## Addresses of a frame (R350) -/

theorem up_down_add (a : Addr) (n k : Nat) : up (down a (n + k)) k = down a n := by
  simp only [up, down, BitVec.ofNat_add]
  bv_omega

/-- An address that is one of the last n of k + n addresses is one of them all. -/
theorem within_of_within_up {a x : Addr} {k n : Nat} (h : Within (up a k) n x) (hn : k + n ≤ 2 ^ 64) :
    Within a (k + n) x := by
  obtain ⟨j, hj, rfl⟩ := h.eq_up
  rw [up_up]
  exact within_up a (by omega) hn

/-- None of the addresses past the first k is one of the first k. -/
theorem not_within_up_up (a : Addr) {k j : Nat} (hj : k + j < 2 ^ 64) : ¬ Within a k (up (up a k) j) := by
  rw [up_up, Within, up_sub a hj]
  omega

/-! ## The frame that a call leaves (R350 to R352) -/

/-- PSFP is stored first, and the RETA stored below it does not reach it. -/
theorem entersFrame_enterFrame (s : State) (lo reta target : Addr) :
    EntersFrame s (s.enterFrame (s.frameMem (up lo 8) lo reta) lo target) lo reta target where
  reta := State.elem_of_storeLE (w := .w64) rfl
  psfp := by
    rw [← stored_value s (up lo 8) .w64 s.sfp s.sp s.pc]
    refine State.elem_congr fun j hj => Memory.get_storeLE_of_not_within _ lo 8 _ (by decide) ?_
    change j < 8 at hj
    exact not_within_up_up lo (by omega)
  sp := rfl
  sfp := rfl
  pc := rfl
  mem := fun x hx => by
    have hlo : ¬ Within lo 8 x := fun h => hx (Nat.lt_trans h (by decide))
    have hhi : ¬ Within (up lo 8) 8 x := fun h => hx (within_of_within_up h (by decide))
    rw [State.enterFrame_mem, State.frameMem, Memory.get_storeLE_of_not_within _ lo 8 _ (by decide) hlo,
      Memory.get_storeLE_of_not_within _ (up lo 8) 8 _ (by decide) hhi]
  sbp := rfl
  slp := rfl
  status := rfl
  cfg := rfl

/-- Settles O46: the PSFP of call lies 8 bytes above its new SP. -/
theorem callResult : Obligations.CallResult := by
  intro imm s h hp hr
  refine ⟨_, call_ok imm h hp hr, ?_⟩
  rw [← up_down_add s.sp 8 8]
  exact entersFrame_enterFrame s (down s.sp 16) (up s.pc 9) imm

/-- Settles O47: the PSFP of calls lies 8 bytes above its new SP, where the target was. -/
theorem callsResult : Obligations.CallsResult := by
  intro s h ha hr
  refine ⟨_, calls_ok h ha hr, ?_⟩
  have e := entersFrame_enterFrame s (down s.sp 8) (up s.pc 1) (s.elem s.sp .w64)
  rwa [up_down] at e

/-! ## ret (R353) -/

theorem rawRead_error {s : State} {a : Addr} {w : Width} {j : Nat} (hj : j < w.bytes)
    (hp : s.mapped (up a j) = false) (hk : ∀ k < j, s.mapped (up a k) = true) :
    rawRead s a w = .error (.accessFault (up a j)) := by
  rw [rawRead, mapCheck_error hj hp hk, except_bind_error]

theorem frameStackCheck_underflow {s : State} (h : s.sbp.toNat < s.sfp.toNat + 16) :
    frameStackCheck s = .error .stackUnderflow := by
  rw [frameStackCheck, if_pos (by omega)]

theorem frameStackCheck_overflow {s : State} (h : s.sfp.toNat + 16 ≤ s.sbp.toNat)
    (h' : s.sfp.toNat + 16 < s.slp.toNat) : frameStackCheck s = .error .stackOverflow := by
  rw [frameStackCheck, if_neg (by omega), if_pos (by omega)]

/-- The mapped addresses of two consecutive accesses. -/
theorem mappedOk_add {s : State} {a : Addr} {n k : Nat} (h : MappedOk s a (n + k)) :
    MappedOk s a n ∧ MappedOk s (up a n) k :=
  ⟨fun j hj => h j (by omega), fun j hj => by rw [up_up]; exact h (n + j) (by omega)⟩

/-- The first address of the control data that is not mapped is in RETA, or in PSFP after a RETA that was read. -/
theorem ret_accessFault {s : State} {j : Nat} (hj : j < 16) (hp : s.mapped (up s.sfp j) = false)
    (hk : ∀ k < j, s.mapped (up s.sfp k) = true) : execRet s = .next (s.raise (.accessFault (up s.sfp j))) := by
  by_cases hreta : j < 8
  · rw [execRet, rawRead_error (w := .w64) hreta hp hk, except_bind_error, finish_error]
  · obtain ⟨j, rfl⟩ := Nat.exists_eq_add_of_le (Nat.le_of_not_lt hreta)
    have hread : rawRead s s.sfp .w64 = .ok (s.elem s.sfp .w64) := rawRead_ok fun k hk8 => hk k (Nat.lt_add_right j hk8)
    rw [← up_up] at hp ⊢
    have hpsfp : ∀ k < j, s.mapped (up (up s.sfp 8) k) = true := fun k hkj =>
      up_up s.sfp 8 k ▸ hk (8 + k) (by omega)
    have hj8 : j < 8 := by omega
    rw [execRet, hread, except_bind_ok, rawRead_error (w := .w64) hj8 hp hpsfp, except_bind_error, finish_error]

/-- With both words read, the check of the new SP decides. -/
theorem ret_stackFault {s : State} {c : FaultCause} (h : MappedOk s s.sfp 16) (hc : frameStackCheck s = .error c) :
    execRet s = .next (s.raise c) := by
  obtain ⟨hreta, hpsfp⟩ := mappedOk_add (n := 8) (k := 8) h
  rw [execRet, rawRead_ok (w := .w64) hreta, except_bind_ok, rawRead_ok (w := .w64) hpsfp, except_bind_ok, hc,
    except_bind_error, finish_error]

/-- Settles O48: the two reads in order, then the check of the new SP. -/
theorem retResultAndFaults : Obligations.RetResultAndFaults := fun _ =>
  ⟨ret_ok, fun _ => ret_accessFault, fun h hu => ret_stackFault h (frameStackCheck_underflow hu),
    fun h hu ho => ret_stackFault h (frameStackCheck_overflow hu ho)⟩

/-! ## Return after a call (R354) -/

theorem mapped_of_cfg_eq {s t : State} (h : t.cfg = s.cfg) : t.mapped = s.mapped := by
  funext a
  rw [State.mapped, State.mapped, h]

/-- The checks of ret read SFP, SBP, SLP and the configuration alone. -/
theorem RetOk.congr {t u : State} (h : RetOk t) (hsfp : u.sfp = t.sfp) (hsbp : u.sbp = t.sbp) (hslp : u.slp = t.slp)
    (hcfg : u.cfg = t.cfg) : RetOk u := by
  obtain ⟨hreta, hpsfp, hbottom, hlimit⟩ := h
  constructor
  all_goals rw [hsfp]
  · rwa [MappedOk, mapped_of_cfg_eq hcfg]
  · rwa [MappedOk, mapped_of_cfg_eq hcfg]
  · rwa [hsbp]
  · rwa [hslp]

/-- The StackCheck and the two writes of a call are what the ret of its frame asks for. -/
theorem EntersFrame.retOk {s t : State} {lo reta target : Addr} {nIn : Nat} (e : EntersFrame s t lo reta target)
    (hlo : resultAddr s nIn 16 = lo) (h : StackOk s nIn 16) (hp : DataOk s (up lo 8) 8) (hr : DataOk s lo 8) :
    RetOk t := by
  have hsp := resultAddr_toNat h
  rw [hlo] at hsp
  have hmapped := mapped_of_cfg_eq e.cfg
  obtain ⟨hbottom, hlimit⟩ := h
  constructor
  all_goals rw [e.sfp]
  · rw [MappedOk, hmapped]; exact hr.mapped
  · rw [MappedOk, hmapped]; exact hp.mapped
  · rw [e.sbp]; omega
  · rw [e.slp]; omega

/-- A call enters a frame from which ret returns, or raises. -/
theorem exec_call_cases {i : Instr} (s : State) (hi : i = .calls ∨ ∃ imm, i = .call imm) :
    (∃ t lo target, exec i s = .next t ∧ EntersFrame s t lo (up s.pc i.length) target ∧ RetOk t) ∨
    Raises s (exec i s) := by
  rcases hi with rfl | ⟨imm, rfl⟩
  · refine (calls_cases s).imp_left fun ⟨hs, ha, hr⟩ => ?_
    obtain ⟨t, ht, e⟩ := callsResult s hs ha hr
    rw [← up_down s.sp 8] at ha
    exact ⟨t, _, _, ht, e, e.retOk (resultAddr_push (nIn := 8) s (by decide)) hs ha hr⟩
  · refine (call_cases s imm).imp_left fun ⟨hs, hp, hr⟩ => ?_
    obtain ⟨t, ht, e⟩ := callResult imm s hs hp hr
    rw [← up_down_add s.sp 8 8] at hp
    exact ⟨t, _, _, ht, e, e.retOk (resultAddr_push (nIn := 0) s (by decide)) hs hp hr⟩

/-- Settles O49: the callee's state passes the checks of ret because the state after the call does, and the two words
that ret reads are those the call stored. -/
theorem callThenReturn : Obligations.CallThenReturn := by
  intro i s t u hi _ h hrun hsfp hsbp hslp hcfg hreta hpsfp
  rcases exec_call_cases s hi with ⟨t', lo, target, ht, e, hok⟩ | ⟨c, hraise⟩
  · cases h.symm.trans ht
    have hret := ret_ok (hok.congr hsfp hsbp hslp hcfg)
    rw [hsfp, hreta, hpsfp, e.sfp, e.reta, e.psfp] at hret
    rwa [e.sfp]
  · cases h.symm.trans hraise
    cases hrun

end Sys2Proof.Machine
end

section
/-! PROOFS. The statements of 46_jump_branch.md: jumps and branches. A jump or a branch goes to the target of its table, so
what remains for a branch is that the condition it tests, the element being the pattern 0, is that its integer is 0. -/

namespace Sys2Proof.Machine

/-! ## Jumps (46_jump_branch.md R371 to R375) -/

/-- Settles O50: the sign-extended offset added to PC is the address a signed distance from PC. -/
theorem jumpResult : Obligations.JumpResult := by
  intro i s target hi
  cases i with
  | jmp imm => cases hi; rfl
  | rjmpi8 imm | rjmpi16 imm | rjmpi32 imm =>
    cases hi
    rw [← relTarget_eq s imm (by decide)]
    rfl
  | _ => cases hi

/-- Settles O51: with its two checks passed, jmps goes to the element it read. -/
theorem jmpsResult : Obligations.JmpsResult := fun _ => jmps_ok

/-! ## Branches (46_jump_branch.md R376 to R391) -/

theorem branchZero_of_zero {s : State} {w : Width} {target : Addr} {len : Nat} (h : StackOk s w.bytes 0)
    (ha : DataOk s s.sp w.bytes) (hz : (s.elem s.sp w).toNat = 0) :
    branchZero w target len s = .next (s.put s.mem (up s.sp w.bytes) target) := by
  rw [branchZero_ok h ha, if_pos (BitVec.eq_of_toNat_eq hz)]

theorem branchZero_of_ne_zero {s : State} {w : Width} {target : Addr} {len : Nat} (h : StackOk s w.bytes 0)
    (ha : DataOk s s.sp w.bytes) (hz : (s.elem s.sp w).toNat ≠ 0) :
    branchZero w target len s = .next (s.put s.mem (up s.sp w.bytes) (up s.pc len)) := by
  rw [branchZero_ok h ha, if_neg fun h0 => hz (congrArg BitVec.toNat h0)]

/-- Settles O52: every branch is the branching shape with the target of its table row and its own length. -/
theorem branchResult : Obligations.BranchResult := fun _ _ _ _ hi h ha =>
  ⟨fun hz => (exec_of_branches hi).trans (branchZero_of_zero h ha hz),
    fun hz => (exec_of_branches hi).trans (branchZero_of_ne_zero h ha hz)⟩

end Sys2Proof.Machine
end

section
/-! PROOFS. The statements of 47_memory_ops.md: loads and stores. Each table gives an instruction its shape (Laws/Tables) and
each shape its next state (Laws/Shapes); what is added here is where the access at the effective address raises, and what
a store and a load of the same bytes make of each other. -/

namespace Sys2Proof.Machine

/-! ## What loads and stores leave (R400 to R449) -/

theorem loadShape_ok {s : State} {w : Width} {mode : AddrMode} {form : LoadForm}
    (h : LoadOk s w mode form.taken (8 - form.taken + w.bytes)) :
    loadShape w mode form s = .next (s.stored (resultAddr s form.taken w.bytes) w
      (s.elem (effAddr s mode (s.elem s.sp .w64)) w) (resultAddr s form.taken w.bytes) (up s.pc 1)) := by
  cases form with
  | keep => exact loadKeep_ok h
  | pop => exact loadPop_ok (Nat.zero_add w.bytes ▸ h)

/-- Settles O53: either form stores the element read where its result lies. -/
theorem loadResult : Obligations.LoadResult :=
  ⟨fun _ _ => ⟨rfl, rfl⟩, fun _ s w _ form hi h =>
    ⟨_, (exec_of_loads hi s).trans (loadShape_ok h), leavesElem_stored s form.taken w _ 1⟩⟩

/-- Settles O54: the element read at SP is stored. -/
theorem storeResult : Obligations.StoreResult := fun _ s w _ nPop hi h =>
  ⟨_, (exec_of_stores hi s).trans (storeTop_ok h), storesElem_stored s _ w _ nPop⟩

/-- Settles O55: the element read beneath the address is stored. -/
theorem storeReversedResult : Obligations.StoreReversedResult := fun _ s w _ nPop hi h =>
  ⟨_, (exec_of_storesReversed hi s).trans (storeBeneath_ok h), storesElem_stored s _ w _ nPop⟩

/-! ## The access at the effective address raises (R401, 60_exceptions.md R485) -/

theorem loadShape_raise {s : State} {w : Width} {mode : AddrMode} {form : LoadForm} {c : FaultCause}
    (hs : StackOk s 8 (8 - form.taken + w.bytes)) (ha : DataOk s s.sp 8)
    (hc : DataFault s (effAddr s mode (s.elem s.sp .w64)) w.bytes c) :
    loadShape w mode form s = .next (s.raise c) := by
  have haddr := memRead_ok (w := .w64) ha
  have hdata := memRead_error hc
  cases form with
  | keep =>
    have hstack : stackCheck s 8 (8 + w.bytes) = .ok () := stackCheck_ok hs
    simp [loadShape, loadKeep, hstack, haddr, hdata]
  | pop =>
    have hstack : stackCheck s 8 w.bytes = .ok () := stackCheck_ok (Nat.zero_add w.bytes ▸ hs)
    simp [loadShape, loadPop, hstack, haddr, hdata]

theorem storeTop_raise {s : State} {w : Width} {mode : AddrMode} {nPop : Nat} {c : FaultCause}
    (hs : StackOk s (8 + w.bytes) (8 + w.bytes - nPop)) (hb : DataOk s s.sp w.bytes)
    (ha : DataOk s (up s.sp w.bytes) 8) (hc : DataFault s (storeTopAddr s w mode) w.bytes c) :
    storeTop w mode nPop s = .next (s.raise c) := by
  have hwrite : memWrite s s.mem (effAddr s mode (s.elem (up s.sp w.bytes) .w64)) w (s.elem s.sp w) = .error c :=
    memWrite_error hc
  simp [storeTop, stackCheck_ok hs, memRead_ok hb, memRead_ok (w := .w64) ha, hwrite]

theorem storeBeneath_raise {s : State} {w : Width} {mode : AddrMode} {nPop : Nat} {c : FaultCause}
    (hs : StackOk s (8 + w.bytes) (8 + w.bytes - nPop)) (hb : DataOk s s.sp 8)
    (ha : DataOk s (up s.sp 8) w.bytes) (hc : DataFault s (storeBeneathAddr s mode) w.bytes c) :
    storeBeneath w mode nPop s = .next (s.raise c) := by
  have hwrite : memWrite s s.mem (effAddr s mode (s.elem s.sp .w64)) w (s.elem (up s.sp 8) w) = .error c :=
    memWrite_error hc
  simp [storeBeneath, stackCheck_ok hs, memRead_ok (w := .w64) hb, memRead_ok ha, hwrite]

/-- Settles O56: in each shape the checks before the access at the effective address pass, so its cause is the answer. -/
theorem loadStoreFaults : Obligations.LoadStoreFaults := fun _ s _ _ _ =>
  ⟨fun _ hi hs ha hc => (exec_of_loads hi s).trans (loadShape_raise hs ha hc),
    fun _ hi hs hb ha hc => (exec_of_stores hi s).trans (storeTop_raise hs hb ha hc),
    fun _ hi hs hb ha hc => (exec_of_storesReversed hi s).trans (storeBeneath_raise hs hb ha hc)⟩

/-! ## A load after a store, and a store onto its own value (20_memory.md R65, R68) -/

/-- The effective address depends on SFP and the operand alone. -/
theorem effAddr_of_sfp_eq {s t : State} (h : t.sfp = s.sfp) (mode : AddrMode) (a : Addr) :
    effAddr t mode a = effAddr s mode a := by
  cases mode with
  | absolute => rfl
  | sfp => exact congrArg (· + a) h

/-- An element that a store does not overlap is as before. -/
theorem StoresElem.elem_of_disjoint {s t : State} {ea a : Addr} {w w' : Width} {v : Elem w} {nPop : Nat}
    (h : StoresElem s t ea w v nPop) (hd : ∀ x, Within ea w.bytes x → ¬ Within a w'.bytes x) :
    t.elem a w' = s.elem a w' :=
  State.elem_congr fun _ hj => h.mem _ fun hx => hd _ hx (within_up a hj w'.bytes_le)

/-- A reversed store that completes passed its checks, so it stored its element. -/
theorem storesElem_of_running {i : Instr} {s t : State} {w : Width} {mode : AddrMode} {nPop : Nat}
    (hi : i.storesReversed = some (w, mode, nPop)) (h : exec i s = .next t) (hrun : t.status = .running) :
    StoresElem s t (storeBeneathAddr s mode) w (s.elem (up s.sp 8) w) nPop := by
  rcases storeBeneath_cases s w mode nPop with hok | ⟨c, hraise⟩
  · obtain ⟨t', ht', hstores⟩ := storeReversedResult i s w mode nPop hi hok
    cases h.symm.trans ht'
    exact hstores
  · cases h.symm.trans ((exec_of_storesReversed hi s).trans hraise)
    cases hrun

/-- With its address operand kept, the load's effective address is the store's. -/
theorem StoresElem.effAddr_eq {s t : State} {w : Width} {mode : AddrMode} {v : Elem w}
    (h : StoresElem s t (storeBeneathAddr s mode) w v 0)
    (hd : ∀ x, Within (storeBeneathAddr s mode) w.bytes x → ¬ Within s.sp 8 x) :
    effAddr t mode (t.elem t.sp .w64) = storeBeneathAddr s mode := by
  have hsp : t.sp = s.sp := h.sp.trans (up_zero s.sp)
  rw [hsp, h.elem_of_disjoint (w' := .w64) hd, effAddr_of_sfp_eq h.rest.sfp, storeBeneathAddr]

/-- Storing the number that is there changes no byte. -/
theorem Memory.get_storeLE_loadLE (m : Memory) (a : Addr) {n : Nat} (hn : n ≤ 2 ^ 64) (x : Addr) :
    (m.storeLE a n (m.loadLE a n)).get x.toNat = m.get x.toNat := by
  by_cases hx : Within a n x
  · obtain ⟨i, hi, rfl⟩ := hx.eq_up
    apply BitVec.eq_of_toNat_eq
    rw [m.get_storeLE_up a _ hn hi, BitVec.toNat_ofNat]
    exact m.loadLE_byte a hi
  · exact m.get_storeLE_of_not_within a n _ hn hx

/-- A store onto its own value stores the number that is there, and one that raises stores nothing. -/
theorem storeTop_own_get_mem {s t : State} {w : Width} {mode : AddrMode} {nPop : Nat}
    (hown : storeTopAddr s w mode = s.sp) (h : storeTop w mode nPop s = .next t) (x : Addr) :
    t.mem.get x.toNat = s.mem.get x.toNat := by
  rcases storeTop_cases s w mode nPop with hok | ⟨c, hraise⟩
  · cases h.symm.trans (storeTop_ok hok)
    rw [hown, State.stored, State.put_mem, State.elem_toNat]
    exact s.mem.get_storeLE_loadLE s.sp w.bytes_le x
  · cases h.symm.trans hraise
    rfl

/-- Settles O57: the load reads at the address of the store (O53, O55), and a store onto its own value writes back the
bytes it read. -/
theorem storeThenLoadReadsValue : Obligations.StoreThenLoadReadsValue := by
  constructor
  · intro i j s t w mode hi hj _ h hrun hd hok
    have hstores := storesElem_of_running hi h hrun
    obtain ⟨u, hu, hleaves⟩ := loadResult.2 j t w mode .keep hj hok
    refine ⟨u, hu, ?_⟩
    rw [hleaves.sp, hleaves.value, hstores.effAddr_eq hd, hstores.value]
  · intro i s t w mode nPop hi hown h x
    exact storeTop_own_get_mem hown ((exec_of_stores hi s).symm.trans h) x

end Sys2Proof.Machine
end

section
/-! PROOFS. The statements of 48_misc.md, 60_exceptions.md and 70_reset_and_hazards.md: the miscellaneous instructions,
the kinds of status a step can leave, and the boot sequence. -/

namespace Sys2Proof.Machine

/-! ## The miscellaneous instructions (48_misc.md R460 to R467) -/

theorem exec_setsbp (v : BitVec 64) (s : State) : exec (.setsbp v) s = .next (s.setSbp v (up s.pc 9)) := rfl

theorem exec_setsfp (v : BitVec 64) (s : State) : exec (.setsfp v) s = .next (s.setSfp v (up s.pc 9)) := rfl

theorem exec_setsp (v : BitVec 64) (s : State) : exec (.setsp v) s = .next (s.setSp v (up s.pc 9)) := rfl

theorem exec_setslp (v : BitVec 64) (s : State) : exec (.setslp v) s = .next (s.setSlp v (up s.pc 9)) := rfl

theorem exec_nop (s : State) : exec .nop s = .next (s.setPc (up s.pc 1)) := rfl

theorem exec_halt (s : State) : exec .halt s = .next s.halt := rfl

theorem exec_ext (s : State) : exec .ext s = .next (s.raise .invalidInstruction) := rfl

theorem exec_invalid (s : State) : exec .invalid s = .next (s.raise .invalidInstruction) := rfl

/-- Settles O58: the update of each register, written out field by field. -/
theorem setRegisterResult : Obligations.SetRegisterResult := fun v s =>
  ⟨exec_setsbp v s, exec_setsfp v s, exec_setsp v s, exec_setslp v s⟩

/-- Settles O59: the update of PC alone, or of the status alone, written out field by field. -/
theorem nopHaltExtInvalidResult : Obligations.NopHaltExtInvalidResult := fun s =>
  ⟨exec_nop s, exec_halt s, exec_ext s, exec_invalid s⟩

/-! ## The status after a step (60_exceptions.md R483, R495, R496) -/

/-- Of the kinds of next state, the fault and the halt change the status and nothing else; every other keeps it. -/
theorem Effect.status_cases {s t : State} {i : Instr} (e : Effect s i t) :
    t.status = s.status ∨ (i = .halt ∧ t = s.halt) ∨ ∃ c, t = s.raise c := by
  cases e with
  | raised c => exact .inr (.inr ⟨c, rfl⟩)
  | halted hi => exact .inr (.inl ⟨hi, rfl⟩)
  | _ => exact .inl rfl

/-- A step leaves the machine running, or executed halt, or raised. -/
theorem step_status_cases {s t : State} (h : step s = .next t) :
    t.status = .running ∨ (fetchInstr s = .ok .halt ∧ t = s.halt) ∨ ∃ c, t = s.raise c := by
  obtain ⟨hs, ⟨c, -, rfl⟩ | ⟨i, hi, -, e⟩⟩ := step_next h
  · exact .inr (.inr ⟨c, rfl⟩)
  · rcases e.status_cases with hkeep | ⟨rfl, hhalt⟩ | hraise
    · exact .inl (hkeep.trans hs)
    · exact .inr (.inl ⟨hi, hhalt⟩)
    · exact .inr (.inr hraise)

/-- A running machine takes its step: a fault of the fetch is a next state, and every instruction answers one. -/
theorem exists_step_of_running {s : State} (hs : s.status = .running) : ∃ t, step s = .next t := by
  cases hf : fetchInstr s with
  | error c => exact ⟨_, step_of_fetchInstr_error hs hf⟩
  | ok i =>
    obtain ⟨t, ht, -⟩ := exec_runs i s
    exact ⟨t, (step_of_fetchInstr_ok hs hf).trans ht⟩

/-- Settles O11: there is a next state, and it is one of the three that `step_status_cases` lists. -/
theorem stepTotalAndPrecise : Obligations.StepTotalAndPrecise := by
  intro s hs
  obtain ⟨t, h⟩ := exists_step_of_running hs
  refine ⟨t, h, ?_⟩
  rcases step_status_cases h with hrun | ⟨-, rfl⟩ | hraise
  · exact .inl hrun
  · exact .inr (.inl s.halt_status)
  · exact .inr (.inr hraise)

/-- Settles O12: of the three kinds of status after a step, only halt gives Halted. -/
theorem haltedOnlyByHalt : Obligations.HaltedOnlyByHalt := by
  intro s t _ h hhalted
  rcases step_status_cases h with hrun | hhalt | ⟨c, rfl⟩
  · cases hhalted.symm.trans hrun
  · exact hhalt
  · cases hhalted

/-! ## The boot sequence (70_reset_and_hazards.md R521)

Any two of its instructions can be exchanged, since they write different registers and each advances PC by 9, so every
order gives what the listed order gives. -/

theorem execAll_append (is js : List Instr) (s : State) : execAll (is ++ js) s = (execAll is s).bind (execAll js) := by
  induction is generalizing s with
  | nil => rfl
  | cons i is ih =>
    simp only [List.cons_append, execAll]
    split
    · exact ih _
    · rfl

/-- Executing the two instructions in either order gives the same, whatever the state. -/
def Exchangeable (i j : Instr) : Prop := ∀ s, execAll [i, j] s = execAll [j, i] s

/-- Instructions that are exchangeable with each other give the same in every order. -/
theorem execAll_eq_of_perm {is js : List Instr} (hp : is.Perm js) (hx : ∀ i ∈ is, ∀ j ∈ is, Exchangeable i j)
    (s : State) : execAll is s = execAll js s := by
  induction hp generalizing s with
  | nil => rfl
  | @cons i is js _ ih =>
    have htail : execAll is = execAll js := funext <| ih fun j hj k hk =>
      hx j (List.mem_cons_of_mem i hj) k (List.mem_cons_of_mem i hk)
    calc execAll (i :: is) s = (execAll [i] s).bind (execAll is) := execAll_append [i] is s
      _ = (execAll [i] s).bind (execAll js) := by rw [htail]
      _ = execAll (i :: js) s := (execAll_append [i] js s).symm
  | swap i j is =>
    have hji : Exchangeable j i := hx j (by simp) i (by simp)
    calc execAll (j :: i :: is) s = (execAll [j, i] s).bind (execAll is) := execAll_append [j, i] is s
      _ = (execAll [i, j] s).bind (execAll is) := by rw [hji s]
      _ = execAll (i :: j :: is) s := (execAll_append [i, j] is s).symm
  | trans hp _ ih ih' =>
    exact (ih hx s).trans (ih' (fun i hi j hj => hx i (hp.mem_iff.mpr hi) j (hp.mem_iff.mpr hj)) s)

/-- The boot sequence in the order of the statement. -/
def bootSequence (b l : BitVec 64) : List Instr := [.setsbp b, .setslp l, .setsp b, .setsfp b]

/-- The relation is symmetric and reflexive, so the six pairs of the sequence are what there is to compute. -/
theorem bootSequence_exchangeable (b l : BitVec 64) :
    ∀ i ∈ bootSequence b l, ∀ j ∈ bootSequence b l, Exchangeable i j := by
  have hpairs : (bootSequence b l).Pairwise Exchangeable := by
    simp only [bootSequence, List.pairwise_cons, List.forall_mem_cons, List.not_mem_nil, false_imp_iff, implies_true,
      List.Pairwise.nil, and_true]
    exact ⟨⟨fun _ => rfl, fun _ => rfl, fun _ => rfl⟩, ⟨fun _ => rfl, fun _ => rfl⟩, fun _ => rfl⟩
  have hsymm : Std.Symm Exchangeable := ⟨fun _ _ h s => (h s).symm⟩
  intro i hi j hj
  exact hpairs.forall_of_forall (fun _ _ _ => rfl) hi hj

theorem execAll_bootSequence (b l : BitVec 64) (s : State) :
    execAll (bootSequence b l) s = some { s with sbp := b, slp := l, sp := b, sfp := b, pc := up s.pc 36 } := by
  have hpc : up (up (up (up s.pc 9) 9) 9) 9 = up s.pc 36 := by simp only [up_up]
  rw [← hpc]
  rfl

/-- Settles O60: every order gives what the listed order gives. -/
theorem bootSequenceInAnyOrder : Obligations.BootSequenceInAnyOrder := fun s b l is hp =>
  have hsame : execAll (bootSequence b l) s = execAll is s :=
    execAll_eq_of_perm hp.symm (bootSequence_exchangeable b l) s
  hsame.symm.trans (execAll_bootSequence b l s)

end Sys2Proof.Machine
end
